-- ==== Sys2Proof/Word.lean ====
section
/-! DEFINITION. Sys2Proof/Word.lean: the widths that the TZ4's command messages, replies and frame data use (Table 11-1,
Table 11-3, Table 7-3). Everything the manual counts, compares or names is a `Nat`, an `Int` or an inductive type; a bit
vector stands only for a field of a message, a reply or a stored sample. -/

namespace Sys2Proof

/-- One byte of a message, a reply or frame memory. -/
abbrev Byte := BitVec 8

/-- A two-byte message field. -/
abbrev Word16 := BitVec 16

/-- A three-byte message field (the EVENT_CONFIG masks) and the header's exposure range 0..16,777,215. -/
abbrev Word24 := BitVec 24

/-- A four-byte message field. -/
abbrev Word32 := BitVec 32

end Sys2Proof
end

