-- ==== Sys2Proof/Config.lean ====
section
/-! DEFINITION. Sys2Proof/Config.lean: the values the manual leaves open. Each is an opaque constant, so no proof can see
it and a claim holds whatever it is. The plain counter `State.freeIndex` gives a fresh argument at every tick. -/

namespace Sys2Proof

/-- R146: "The composition completes at a moment after its start", not bounded by G. At the tick whose free index is the
argument, whether the composition in flight completes then. Assumption log 3. -/
opaque Config.compositionFinishes : Nat → Bool

/-- R89: the probe completes at a moment no later than 1,500 µs after its start. At the tick whose free index is the
argument, whether the probe in flight completes then (at 1,500 µs it completes in any case). Assumption log 3. -/
opaque Config.probeFinishes : Nat → Bool

/-- R176 and the tables of arrivals that meet (R49, R78, R92, R126, R140, R158, R170, R187): arrivals of one instant may
be taken in either order. The first argument is the tick's free index, the second the number of the arrival among those
that fall due at the tick; the value chooses its place. Assumption log 4. -/
opaque Config.arrivalPlace : Nat → Nat → Nat

/-- R118: a pixel line beyond the Hm-th whose line check also fails meets two of the rule's cases, and the manual does not
say which reason is reported. True: CRC. False: SIZE. Assumption log 5. -/
opaque Config.extraBadLineIsCrc : Bool

end Sys2Proof
end

