-- ==== Sys2Proof/Syntax.lean ====
section
/-! DEFINITION. Sys2Proof/Syntax.lean: the commands of the TZ4, one constructor of `Instr` for each row of
spec/opcode_table.json, and the operands they carry. A host command carries the command port it is taken on (R176) and the
payload fields of Table 11-3 at the widths that table gives them; a module, pin or clock event carries what arrives. -/

namespace Sys2Proof

/-- The two command ports (0.4, Chapter 11). -/
inductive CmdPort where
  /-- Port A, SPI, the application processor. -/
  | a
  /-- Port M, I2C, the motion hub. -/
  | m
deriving DecidableEq, Repr

/-- The four module ports, port 0 to port 3. -/
inductive PortId where
  | p0
  | p1
  | p2
  | p3
deriving DecidableEq, Repr

/-- The port's number, 0..3. -/
def PortId.toNat : PortId → Nat
  | .p0 => 0
  | .p1 => 1
  | .p2 => 2
  | .p3 => 3

/-- The four ports in ascending number. -/
def PortId.all : List PortId := [.p0, .p1, .p2, .p3]

/-- The commands of Table 11-3, in its order. -/
inductive Command where
  | getId
  | getStatus
  | wake
  | sleep
  | softReset
  | portConfig
  | portEnable
  | portDisable
  | getPortStatus
  | calWrite
  | calRead
  | outputConfig
  | handoffConfig
  | zoomSet
  | zoomRequest
  | zoomCancel
  | handoffHold
  | captureConfig
  | motionSample
  | streamStart
  | streamStop
  | outputFence
  | getView
  | getHandoff
  | eventConfig
  | getEvents
  | ackEvents
  | getFault
  | clearFault
deriving DecidableEq, Repr

/-- The direction of one transition of the CAPTURE line (R102): low to high, or high to low. -/
inductive Edge where
  | rising
  | falling
deriving DecidableEq, Repr

/-- The number of data lanes a module sends on, or a port listens on: 4, 2 or 1 (R111). -/
inductive Lanes where
  | four
  | two
  | one
deriving DecidableEq, Repr

/-- The payload of PORT_CONFIG (Table 11-3, code 0x10), in its order. -/
structure PortFields where
  port     : Byte
  width    : Word16
  height   : Word16
  readout  : Word32
  exposure : Word32
  deadline : Word32
  quota    : Byte
  policy   : Byte
  divisor  : Byte
deriving DecidableEq, Repr

/-- The payload of CAL_WRITE (Table 11-3, code 0x18), in its order. -/
structure CalFields where
  port   : Byte
  base   : Word16
  trim   : Word16
  cx     : Word16
  cy     : Word16
  margin : Byte
deriving DecidableEq, Repr

/-- The payload of OUTPUT_CONFIG (Table 11-3, code 0x20), in its order. -/
structure OutputFields where
  width       : Word16
  height      : Word16
  period      : Word32
  latency     : Byte
  guard       : Word32
  exposureRef : Word32
deriving DecidableEq, Repr

/-- The payload of HANDOFF_CONFIG (Table 11-3, code 0x21), in its order. -/
structure HandoffFields where
  hysteresis     : Byte
  blendLength    : Byte
  prepareLimit   : Byte
  deferralLimit  : Byte
  probeThreshold : Byte
  motionLimit    : Word16
  backoff        : Byte
  stallLimit     : Byte
  deadLimit      : Byte
  freezeLimit    : Byte
  guardLength    : Byte
  staleLimit     : Word32
deriving DecidableEq, Repr

/-- What arrives with a module's frame start: the header of Table 7-3, the number of lanes the module sends on, whether
the embedded line's check holds for a receiver set to that number of lanes, and whether the embedded line began before the
seek window now open (a header that straddles two windows, R112). -/
structure FrameHeader where
  counter   : Word16
  exposure  : Word24
  settled   : Bool
  width     : Nat
  height    : Nat
  lanes     : Lanes
  checkOk   : Bool
  straddles : Bool
deriving DecidableEq, Repr

/-- The commands of spec/opcode_table.json, one constructor a row, in the table's order. -/
inductive Instr where
  /-- POWER_ON (R160). `addrHigh` is the level of the ADDR pin, sampled at power-on (R172). -/
  | powerOn (addrHigh : Bool)
  /-- PIN_RESET (R160): RESET_N is driven low. -/
  | pinReset
  /-- RESET_RELEASE (R160): RESET_N is released with ADDR at the given level. -/
  | resetRelease (addrHigh : Bool)
  /-- UNKNOWN_COMMAND (R173): a message that is no well-formed command, with its bytes. -/
  | unknownCommand (p : CmdPort) (message : List Byte)
  | getId (p : CmdPort)
  | getStatus (p : CmdPort)
  | wake (p : CmdPort)
  | wakeComplete
  | sleep (p : CmdPort)
  | softReset (p : CmdPort)
  | softResetComplete
  | portConfig (p : CmdPort) (f : PortFields)
  | portEnable (p : CmdPort) (port : Byte)
  | portDisable (p : CmdPort) (port : Byte)
  | getPortStatus (p : CmdPort) (port : Byte)
  | calWrite (p : CmdPort) (f : CalFields)
  | calRead (p : CmdPort) (port : Byte)
  | outputConfig (p : CmdPort) (f : OutputFields)
  | handoffConfig (p : CmdPort) (f : HandoffFields)
  | zoomSet (p : CmdPort) (z : Word16)
  /-- ZOOM_REQUEST with a mode byte other than 1: 0 is APPEND, any other number is refused (R40). -/
  | zoomRequestAppend (p : CmdPort) (id : Byte) (target : Word16) (n : Byte) (mode : Byte)
  /-- ZOOM_REQUEST with mode byte 1, REPLACE (R42). -/
  | zoomRequestReplace (p : CmdPort) (id : Byte) (target : Word16) (n : Byte)
  | zoomCancel (p : CmdPort)
  /-- HANDOFF_HOLD with an on byte other than 0: 1 is on, any other number is refused (R99, 11.5). -/
  | handoffHoldOn (p : CmdPort) (on : Byte) (limit : Byte)
  /-- HANDOFF_HOLD with on byte 0; the limit field is carried and not looked at (R99). -/
  | handoffHoldOff (p : CmdPort) (limit : Byte)
  | captureConfig (p : CmdPort) (edge : Byte)
  | motionSample (p : CmdPort) (ex : Word16) (ey : Word16) (q : Word16)
  | streamStart (p : CmdPort)
  | streamStop (p : CmdPort)
  | drainEnd
  | outputFence (p : CmdPort)
  | getView (p : CmdPort)
  | getHandoff (p : CmdPort)
  | eventConfig (p : CmdPort) (enables : Word24) (urgencies : Word24) (masters : Byte)
  | getEvents (p : CmdPort)
  | ackEvents (p : CmdPort) (kinds : List Byte)
  | getFault (p : CmdPort)
  | clearFault (p : CmdPort)
  | periodStart
  | rampComplete
  | holdExpired
  | guardExpiry
  | barExpiry (m : PortId)
  | prepareTimeout
  | probeSkip
  | blendCommit
  | autoReset (m : PortId)
  | fsyncIssue (m : PortId)
  | resetPulseEnd (m : PortId)
  | seekWindowEnd (m : PortId)
  | frameStart (m : PortId) (h : FrameHeader)
  /-- PIXEL_LINE (R118): one line's luma samples, the U and V samples that come with it (4:2:0: with every second line),
  and the outcome of its line check. -/
  | pixelLine (m : PortId) (y : List Byte) (u : List Byte) (v : List Byte) (checkOk : Bool)
  | frameEnd (m : PortId)
  | fillTimeout (m : PortId)
  | frameDeadline (m : PortId)
  | probeComplete
  | captureEdge (e : Edge)
  | composeDeadline
  | compositionComplete
  | emissionStart
  | txDone
deriving DecidableEq, Repr

end Sys2Proof
end

