-- ==== Sys2Proof/Decode.lean ====
section
/-! DEFINITION. Sys2Proof/Decode.lean: the decoder. spec/opcode_table.json gives no row any bits, so no word spells a
command by the table; a host's message is decoded by the frame of Table 11-1 and the payloads of Table 11-3 (R173). The
decoder is total: a message that is no well-formed command becomes the row UNKNOWN_COMMAND, which carries its bytes. -/

namespace Sys2Proof

/-- The command codes of Table 11-3. -/
def Command.code : Command → Nat
  | .getId => 0x01
  | .getStatus => 0x02
  | .wake => 0x03
  | .sleep => 0x04
  | .softReset => 0x05
  | .portConfig => 0x10
  | .portEnable => 0x11
  | .portDisable => 0x12
  | .getPortStatus => 0x13
  | .calWrite => 0x18
  | .calRead => 0x19
  | .outputConfig => 0x20
  | .handoffConfig => 0x21
  | .zoomSet => 0x28
  | .zoomRequest => 0x29
  | .zoomCancel => 0x2A
  | .handoffHold => 0x30
  | .captureConfig => 0x31
  | .motionSample => 0x32
  | .streamStart => 0x38
  | .streamStop => 0x39
  | .outputFence => 0x40
  | .getView => 0x41
  | .getHandoff => 0x42
  | .eventConfig => 0x48
  | .getEvents => 0x49
  | .ackEvents => 0x4A
  | .getFault => 0x50
  | .clearFault => 0x51

/-- The commands in the order of Table 11-3. -/
def Command.all : List Command :=
  [.getId, .getStatus, .wake, .sleep, .softReset, .portConfig, .portEnable, .portDisable, .getPortStatus, .calWrite,
   .calRead, .outputConfig, .handoffConfig, .zoomSet, .zoomRequest, .zoomCancel, .handoffHold, .captureConfig,
   .motionSample, .streamStart, .streamStop, .outputFence, .getView, .getHandoff, .eventConfig, .getEvents, .ackEvents,
   .getFault, .clearFault]

/-- The command of a code, if the code is one of Table 11-3 (R173 step 2). -/
def Command.ofCode? (code : Nat) : Option Command := Command.all.find? fun c => c.code = code

/-- A two-byte field, the least significant byte first (11.2). -/
def word16 (b0 b1 : Byte) : Word16 := b1 ++ b0

/-- A three-byte field, the least significant byte first (11.2). -/
def word24 (b0 b1 b2 : Byte) : Word24 := b2 ++ b1 ++ b0

/-- A four-byte field, the least significant byte first (11.2). -/
def word32 (b0 b1 b2 b3 : Byte) : Word32 := b3 ++ b2 ++ b1 ++ b0

/-- The command a payload spells for a code, at the lengths of Table 11-3; none for any other length (R173 step 4). -/
def decodePayload (p : CmdPort) (c : Command) (payload : List Byte) : Option Instr :=
  match c, payload with
  | .getId, [] => some (.getId p)
  | .getStatus, [] => some (.getStatus p)
  | .wake, [] => some (.wake p)
  | .sleep, [] => some (.sleep p)
  | .softReset, [] => some (.softReset p)
  | .portConfig, [port, w0, w1, h0, h1, r0, r1, r2, r3, e0, e1, e2, e3, d0, d1, d2, d3, quota, policy, divisor] =>
    some (.portConfig p
      { port := port, width := word16 w0 w1, height := word16 h0 h1, readout := word32 r0 r1 r2 r3,
        exposure := word32 e0 e1 e2 e3, deadline := word32 d0 d1 d2 d3, quota := quota, policy := policy,
        divisor := divisor })
  | .portEnable, [port] => some (.portEnable p port)
  | .portDisable, [port] => some (.portDisable p port)
  | .getPortStatus, [port] => some (.getPortStatus p port)
  | .calWrite, [port, b0, b1, s0, s1, x0, x1, y0, y1, g] =>
    some (.calWrite p
      { port := port, base := word16 b0 b1, trim := word16 s0 s1, cx := word16 x0 x1, cy := word16 y0 y1, margin := g })
  | .calRead, [port] => some (.calRead p port)
  | .outputConfig, [w0, w1, h0, h1, p0, p1, p2, p3, l, g0, g1, g2, g3, e0, e1, e2, e3] =>
    some (.outputConfig p
      { width := word16 w0 w1, height := word16 h0 h1, period := word32 p0 p1 p2 p3, latency := l,
        guard := word32 g0 g1 g2 g3, exposureRef := word32 e0 e1 e2 e3 })
  | .handoffConfig, [h, nb, pl, dl, th, m0, m1, bo, sl, dd, fr, gl, t0, t1, t2, t3] =>
    some (.handoffConfig p
      { hysteresis := h, blendLength := nb, prepareLimit := pl, deferralLimit := dl, probeThreshold := th,
        motionLimit := word16 m0 m1, backoff := bo, stallLimit := sl, deadLimit := dd, freezeLimit := fr,
        guardLength := gl, staleLimit := word32 t0 t1 t2 t3 })
  | .zoomSet, [z0, z1] => some (.zoomSet p (word16 z0 z1))
  | .zoomRequest, [id, t0, t1, n, mode] =>
    if mode = 1 then some (.zoomRequestReplace p id (word16 t0 t1) n)
    else some (.zoomRequestAppend p id (word16 t0 t1) n mode)
  | .zoomCancel, [] => some (.zoomCancel p)
  | .handoffHold, [on, limit] =>
    if on = 0 then some (.handoffHoldOff p limit) else some (.handoffHoldOn p on limit)
  | .captureConfig, [edge] => some (.captureConfig p edge)
  | .motionSample, [x0, x1, y0, y1, q0, q1] => some (.motionSample p (word16 x0 x1) (word16 y0 y1) (word16 q0 q1))
  | .streamStart, [] => some (.streamStart p)
  | .streamStop, [] => some (.streamStop p)
  | .outputFence, [] => some (.outputFence p)
  | .getView, [] => some (.getView p)
  | .getHandoff, [] => some (.getHandoff p)
  | .eventConfig, [e0, e1, e2, u0, u1, u2, masters] =>
    some (.eventConfig p (word24 e0 e1 e2) (word24 u0 u1 u2) masters)
  | .getEvents, [] => some (.getEvents p)
  | .ackEvents, kinds => if 1 ≤ kinds.length ∧ kinds.length ≤ 21 then some (.ackEvents p kinds) else none
  | .getFault, [] => some (.getFault p)
  | .clearFault, [] => some (.clearFault p)
  | _, _ => none

/-- R173 steps 1, 2 and 4: the command a message taken on a port spells; a message whose frame, code or payload length is
refused is the row UNKNOWN_COMMAND. -/
def decodeMessage (p : CmdPort) (message : List Byte) : Instr :=
  match message with
  | code :: len :: payload =>
    if 30 < len.toNat ∨ payload.length ≠ len.toNat then .unknownCommand p message
    else
      match Command.ofCode? code.toNat with
      | none => .unknownCommand p message
      | some c => (decodePayload p c payload).getD (.unknownCommand p message)
  | _ => .unknownCommand p message

/-- The command that a word spells by the bits of spec/opcode_table.json: the table gives no row any bits, so none. -/
def decodeTableWord (_nbits _w : Nat) : Option Instr := none

end Sys2Proof
end

