-- ==== Sys2Proof/Machine/State.lean ====
section
/-! DEFINITION. Sys2Proof/Machine/State.lean: every piece of state the manual gives the TZ4 (Table 0-1 names the blocks),
as plain data, the values of power-on, and the reasons a step can stop. `Device` is the part itself; `State` adds frame
memory, the model's counter for free values and the queue of commands that wait. -/

namespace Sys2Proof.Machine

open Sys2Proof

/-- One value for each module port. -/
structure PerPort (α : Type) where
  p0 : α
  p1 : α
  p2 : α
  p3 : α
deriving DecidableEq, Repr

/-! ### Chapter 10: the Mode Controller -/

/-- Table 10-1, in its order. -/
inductive Mode where
  | dormant
  | waking
  | standby
  | streaming
  | stopping
  | resetting
deriving DecidableEq, Repr

/-- R161, in its order. -/
inductive ResetCause where
  | powerOn
  | pin
  | soft
  | cleared
deriving DecidableEq, Repr

/-- Table 10-2. The output size is absent until an OUTPUT_CONFIG is accepted (R167). -/
structure OutputConfig where
  size        : Option (Nat × Nat)
  period      : Nat
  latency     : Nat
  guard       : Nat
  exposureRef : Nat
deriving DecidableEq, Repr

/-- Table 10-3. -/
structure HandoffConfig where
  hysteresis     : Nat
  blendLength    : Nat
  prepareLimit   : Nat
  deferralLimit  : Nat
  probeThreshold : Nat
  motionLimit    : Nat
  backoff        : Nat
  stallLimit     : Nat
  deadLimit      : Nat
  freezeLimit    : Nat
  guardLength    : Nat
  staleLimit     : Nat
deriving DecidableEq, Repr

/-- The cadence of a session (R165, R166), present in STREAMING and STOPPING. `start` is T_0, `current` the current period
index; `nextPlan` is the index of the next planning, one above the current period but for a port that takes a period start
before the View Planner does (R122). The next compose deadline is that of the head plan, the next emission start that of the
pending record. -/
structure Session where
  start    : Nat
  current  : Nat
  nextPlan : Nat
deriving DecidableEq, Repr

/-- The Mode Controller, with the two input pins it samples. `enteredAt` is the time base at the entry to WAKING or
RESETTING, from which R162 and R163 measure; `resetLow` says that RESET_N is low (R160); `addrHigh` is ADDR as last
sampled (R172). -/
structure ModeController where
  mode      : Mode
  enteredAt : Nat
  timeBase  : Nat
  session   : Option Session
  output    : OutputConfig
  handoff   : HandoffConfig
  resetLow  : Bool
  addrHigh  : Bool
deriving DecidableEq, Repr

/-! ### Chapter 11: the Command Interpreters -/

/-- Table 11-2, in its order. -/
inductive Status where
  | ok
  | accepted
  | clamped
  | ignored
  | busy
  | wrongMode
  | badLength
  | badParam
  | unknownCommand
  | locked
  | queueFull
  | fenceBusy
  | noSource
  | notReady
deriving DecidableEq, Repr

/-- The reply slot of R174; the payload length is the payload's. -/
structure Reply where
  status  : Status
  payload : List Byte
deriving DecidableEq, Repr

/-- A bus transaction under way at a command port (R171, R172), by what the next byte of it does. -/
inductive BusTransaction where
  /-- SPI_CS_N has fallen and no byte has been clocked. -/
  | selected
  /-- A write, with the message bytes taken so far. -/
  | write (message : List Byte)
  /-- An SPI read before its turnaround byte. -/
  | turnaround
  /-- A read: before its first byte none, and from then on the reply bytes still to send. -/
  | read (left : Option (List Byte))
  /-- An SPI transaction of any other kind. -/
  | ignored
deriving DecidableEq, Repr

/-- A command port: its interpreter's reply slot and copy of the reset cause, and the bus transaction under way, absent
between transactions and after a reset has ended one (R171). -/
structure HostPort where
  reply : Reply
  cause : ResetCause
  bus   : Option BusTransaction
deriving DecidableEq, Repr

/-! ### Chapter 1: the Calibration Table -/

/-- Table 1-1. -/
structure Calibration where
  written : Bool
  base    : Nat
  trim    : Nat
  cx      : Nat
  cy      : Nat
  margin  : Nat
deriving DecidableEq, Repr

/-! ### Chapter 2: the Geometry Unit (no state; the shapes of its requests and answers) -/

/-- Table 2-2. -/
structure WindowInputs where
  wm   : Nat
  hm   : Nat
  wo   : Nat
  ho   : Nat
  base : Nat
  trim : Nat
  cx   : Nat
  cy   : Nat
  zoom : Nat
  ex   : Int
  ey   : Int
  rx   : Int
  ry   : Int
deriving DecidableEq, Repr

/-- A crop window (R27). -/
structure Window where
  x0 : Nat
  y0 : Nat
  w  : Nat
  h  : Nat
deriving DecidableEq, Repr

/-- What the Geometry Unit returns (R27). -/
structure WindowAnswer where
  window    : Window
  edge      : Bool
  floorFlag : Bool
deriving DecidableEq, Repr

/-- The three planes of a stored picture. -/
inductive Plane where
  | y
  | u
  | v
deriving DecidableEq, Repr

/-! ### Chapters 3, 4 and 6: the View Planner -/

/-- Table 3-1. -/
structure ZoomEntry where
  id     : Nat
  target : Nat
  length : Nat
deriving DecidableEq, Repr

/-- Table 3-2. -/
structure Ramp where
  id     : Nat
  start  : Nat
  target : Nat
  length : Nat
  step   : Nat
deriving DecidableEq, Repr

/-- Table 4-1, in its order. -/
inductive Role where
  | active
  | dest
  | warm
  | cold
  | none
deriving DecidableEq, Repr

/-- Table 4-2, in its order. -/
inductive HandoffState where
  | steady
  | prepare
  | probe
  | blend
  | noSource
deriving DecidableEq, Repr

/-- The direction of a hand-off (Table 4-3), in the reason order of HANDOFF_STARTED. -/
inductive Direction where
  | up
  | down
deriving DecidableEq, Repr

/-- Whether a residual record was accepted (Table 4-3), in the order listed there. -/
inductive Accepted where
  | yes
  | no
  | skipped
deriving DecidableEq, Repr

/-- The residual record of Table 4-3. -/
structure Residual where
  rx       : Int
  ry       : Int
  score    : Nat
  accepted : Accepted
deriving DecidableEq, Repr

/-- Table 4-3. -/
structure HandoffContext where
  dest      : PortId
  direction : Direction
  prepared  : Nat
  elapsed   : Nat
  deferral  : Nat
  residual  : Option Residual
  step      : Nat
deriving DecidableEq, Repr

/-- The reasons of HANDOFF_DONE and of the last change record (R82), in the order of Table 12-1. -/
inductive ChangeReason where
  | blend
  | forced
  | fallback
deriving DecidableEq, Repr

/-- The reasons of HANDOFF_ABANDONED (R69), in the order of Table 12-1. -/
inductive AbandonReason where
  | reversed
  | timeout
  | stopped
deriving DecidableEq, Repr

/-- The last change record of R82. -/
structure LastChange where
  old    : Option PortId
  new    : PortId
  reason : ChangeReason
  period : Nat
deriving DecidableEq, Repr

/-- The blend step a plan written in BLEND carries (R68). -/
structure BlendStep where
  dest          : PortId
  step          : Nat
  alpha         : Nat
  rx            : Int
  ry            : Int
  lowConfidence : Bool
  probeSkipped  : Bool
deriving DecidableEq, Repr

/-- Table 4-6. -/
structure ViewPlan where
  period      : Nat
  nominal     : Nat
  applied     : Nat
  zoomHeld    : Bool
  requestId   : Option Nat
  state       : HandoffState
  active      : Option PortId
  blend       : Option BlendStep
  syncSet     : List PortId
  captureMark : Bool
deriving DecidableEq, Repr

/-- The capture edge selection of R101, in its order. -/
inductive CaptureSelect where
  | none
  | rising
  | falling
  | both
deriving DecidableEq, Repr

/-- The state the View Planner owns (Table 0-1). -/
structure Planner where
  nominal       : Nat
  applied       : Nat
  queue         : List ZoomEntry
  ramp          : Option Ramp
  state         : Option HandoffState
  context       : Option HandoffContext
  roles         : PerPort Role
  bars          : PerPort Nat
  hold          : Nat
  guard         : Nat
  captureSelect : CaptureSelect
  markPending   : Bool
  plans         : List ViewPlan
  lastChange    : Option LastChange
deriving DecidableEq, Repr

/-! ### Chapter 5: the Registration Probe -/

/-- Table 5-1. -/
structure ProbeContext where
  activePort : PortId
  destPort   : PortId
  activeSlot : Nat
  destSlot   : Nat
  period     : Nat
  zoom       : Nat
  ex         : Int
  ey         : Int
  start      : Nat
deriving DecidableEq, Repr

/-- Table 5-2; the record's absence is its present = no with every other field 0. -/
structure ProbeResult where
  activePort : PortId
  destPort   : PortId
  period     : Nat
  rx         : Int
  ry         : Int
  bestCost   : Nat
  contrast   : Nat
  score      : Nat
  accepted   : Bool
  taken      : Bool
  time       : Nat
deriving DecidableEq, Repr

/-- What a probe measures (R86 to R88). -/
structure ProbeMeasure where
  rx       : Int
  ry       : Int
  bestCost : Nat
  contrast : Nat
  score    : Nat
  accepted : Bool
deriving DecidableEq, Repr

/-! ### Chapter 6: the Motion Store -/

/-- Table 6-1. -/
structure MotionSample where
  ex    : Int
  ey    : Int
  q     : Nat
  stamp : Nat
deriving DecidableEq, Repr

/-- The answer of a lookup (R96). -/
structure MotionShift where
  ex       : Int
  ey       : Int
  noMotion : Bool
  stale    : Bool
deriving DecidableEq, Repr

/-! ### Chapter 7: the Module Ports -/

/-- Table 7-1, the standby policy, in its payload numbers. -/
inductive Standby where
  | warm
  | cold
deriving DecidableEq, Repr

/-- Table 7-1. -/
structure PortConfig where
  width    : Nat
  height   : Nat
  readout  : Nat
  exposure : Nat
  deadline : Nat
  quota    : Nat
  policy   : Standby
  divisor  : Nat
deriving DecidableEq, Repr

/-- Table 7-2, in its order. -/
inductive PortState where
  | off
  | resetting
  | seeking
  | linked
  | stalled
  | dead
deriving DecidableEq, Repr

/-- An expectation record (R115), and a pending FSYNC (R114), which records the same three fields. -/
structure Expectation where
  period   : Nat
  issue    : Nat
  deadline : Nat
deriving DecidableEq, Repr

/-- The frame being written into a FILLING slot: the slot, the frame start from which the fill timer runs (R116, R118) and
the pixel lines taken. -/
structure Fill where
  slot  : Nat
  start : Nat
  lines : Nat
deriving DecidableEq, Repr

/-- The automatic reset allowance of Table 7-4, in its order. -/
inductive Allowance where
  | available
  | spent
deriving DecidableEq, Repr

/-- Why a period was bad (R120), in the reason order of PORT_STALLED. -/
inductive BadReason where
  | missed
  | faulted
deriving DecidableEq, Repr

/-- The reasons of FRAME_FAULT, in the order of Table 12-1. -/
inductive FaultReason where
  | crc
  | size
  | short
  | timeout
  | unsolicited
deriving DecidableEq, Repr

/-- The causes of a DOWN report (R54). -/
inductive DownCause where
  | portReset
  | autoReset
deriving DecidableEq, Repr

/-- A port's report that it no longer delivers: STALLED, or DOWN with its cause (R54). -/
inductive LossReport where
  | stalled
  | down (cause : DownCause)
deriving DecidableEq, Repr

/-- A frame outcome as the View Planner takes it (R62). -/
inductive FrameOutcome where
  | good (settled : Bool)
  | missed
  | faulted
  | dropped
deriving DecidableEq, Repr

/-- A Module Port. `since` is the time base at entry to RESETTING, and in SEEKING at the start of the open seek window,
`window` that window's number 0..11 (R111); `lanes` is the lane count of R107, present in LINKED and STALLED; `frameCounter`
is the previous frame counter (R113); `fsyncIssued` says whether the port has issued an FSYNC since it linked (R116 order 2);
`lastPulse` is the leading edge of the last pulse driven on the port's FSYNC line. -/
structure ModulePort where
  config         : Option PortConfig
  state          : PortState
  since          : Nat
  window         : Nat
  lanes          : Option Lanes
  newestExposure : Nat
  frameCounter   : Nat
  expectations   : List Expectation
  pendingFsync   : Option Expectation
  fsyncIssued    : Bool
  filling        : Option Fill
  badPeriods     : Nat
  goodRun        : Nat
  stallAge       : Nat
  allowance      : Allowance
  good           : Nat
  missed         : Nat
  faulted        : Nat
  dropped        : Nat
  skips          : Nat
  lastPulse      : Option Nat
deriving DecidableEq, Repr

/-! ### Chapter 8: the Slot Manager -/

/-- The states of a frame slot (Table 8-1), in its order. -/
inductive SlotState where
  | free
  | filling
  | ready
  | held
deriving DecidableEq, Repr

/-- Table 8-1. -/
structure Slot where
  id       : Nat
  state    : SlotState
  owner    : Option PortId
  period   : Option Nat
  centre   : Option Nat
  exposure : Nat
  settled  : Bool
  useCount : Nat
deriving DecidableEq, Repr

/-! ### Chapter 9: the Compositor and the Output Link -/

/-- The states of an output buffer (Table 9-1), in its order. -/
inductive BufferState where
  | free
  | composing
  | complete
  | sending
  | last
deriving DecidableEq, Repr

/-- Table 9-7. -/
structure TrailerFlags where
  zoomHeld      : Bool
  lateA         : Bool
  lateD         : Bool
  alphaForced   : Bool
  edge          : Bool
  floorFlag     : Bool
  noMotion      : Bool
  stale         : Bool
  lowConfidence : Bool
  probeSkipped  : Bool
  repeated      : Bool
  grey          : Bool
  captureMark   : Bool
deriving DecidableEq, Repr

/-- The trailer of R152 and R153, before its layout by R154. -/
structure Trailer where
  period       : Nat
  activePeriod : Option Nat
  destPeriod   : Option Nat
  nominal      : Nat
  applied      : Nat
  active       : Option PortId
  dest         : Option PortId
  alpha        : Nat
  requestId    : Option Nat
  state        : HandoffState
  rx           : Int
  ry           : Int
  flags        : TrailerFlags
  ex           : Int
  ey           : Int
  centre       : Nat
  activeWindow : Option Window
  destWindow   : Option Window
deriving DecidableEq, Repr

/-- Table 9-1. -/
structure OutputBuffer where
  id      : Nat
  state   : BufferState
  period  : Option Nat
  trailer : Option Trailer
deriving DecidableEq, Repr

/-- Table 9-2. -/
structure Composition where
  period     : Nat
  buffer     : Nat
  activeSlot : Option Nat
  destSlot   : Option Nat
  alpha      : Nat
deriving DecidableEq, Repr

/-- What slot selection finds for a plan (Table 9-4): the ACTIVE and DEST slots, each with whether it was paired LATE, the
α used, and whether it was forced. -/
structure Selection where
  active : Option (Slot × Bool)
  dest   : Option (Slot × Bool)
  alpha  : Nat
  forced : Bool
deriving DecidableEq, Repr

/-- The causes of OUTPUT_REPEAT and OUTPUT_FROZEN, in the order of Table 12-1; the last two are those of a skipped
composition. -/
inductive RepeatCause where
  | late
  | busy
  | noFrame
deriving DecidableEq, Repr

/-- The outcome of a pending record (Table 9-3). -/
inductive PendingOutcome where
  | composing (buffer : Nat)
  | skipped (cause : RepeatCause)
deriving DecidableEq, Repr

/-- The pending record of Table 9-3. -/
structure PendingRecord where
  period  : Nat
  plan    : ViewPlan
  outcome : PendingOutcome
deriving DecidableEq, Repr

/-- The kinds of emission (Table 9-3), in its order. -/
inductive EmissionKind where
  | fresh
  | repeated
  | grey
deriving DecidableEq, Repr

/-- The sending record of Table 9-3. -/
structure SendingRecord where
  period : Nat
  kind   : EmissionKind
  buffer : Option Nat
deriving DecidableEq, Repr

/-- Table 9-3, the emission context with the last trailer and the fence's k_f. -/
structure OutputLink where
  pending        : Option PendingRecord
  sending        : Option SendingRecord
  nonFresh       : Nat
  frozenReported : Bool
  lastTrailer    : Option Trailer
  fence          : Option Nat
deriving DecidableEq, Repr

/-! ### Chapter 12: the Event Unit -/

/-- Table 12-1, in kind order. -/
inductive EventKind where
  | zoomDone
  | zoomDropped
  | handoffStarted
  | handoffDone
  | handoffAbandoned
  | portLinked
  | portRecovered
  | fenceDone
  | holdExpired
  | captureEdge
  | modeChanged
  | motionOverrun
  | frameDropped
  | outputRepeat
  | faultCaptured
  | handoffAborted
  | portStalled
  | portDead
  | frameFault
  | outputFrozen
  | noSource
deriving DecidableEq, Repr

/-- The detail of an event: the fields of Table 12-1, each present or absent, the reason by its number there, and the
nominal and applied zoom of ZOOM_DONE. -/
structure EventDetail where
  port      : Option PortId
  requestId : Option Nat
  period    : Option Nat
  reason    : Option Nat
  zooms     : Option (Nat × Nat)
deriving DecidableEq, Repr

/-- An event record (R180). -/
structure EventRecord where
  kind    : EventKind
  pending : Bool
  count   : Nat
  detail  : Option EventDetail
  enabled : Bool
  urgent  : Bool
deriving DecidableEq, Repr

/-- One command port's records, in kind order, and its class masters (R181). -/
structure EventSet where
  records      : List EventRecord
  urgentMaster : Bool
  normalMaster : Bool
deriving DecidableEq, Repr

/-- What the fault capture record holds when it is present (R185). -/
structure CapturedFault where
  kind   : EventKind
  port   : Option PortId
  period : Option Nat
  time   : Nat
  reason : Option Nat
deriving DecidableEq, Repr

/-- The fault capture record of R185; it is present when `captured` is. -/
structure FaultCapture where
  captured : Option CapturedFault
  overflow : Nat
deriving DecidableEq, Repr

/-- The Event Unit: a set of records for each command port, and the device's fault capture record. -/
structure EventUnit where
  a     : EventSet
  m     : EventSet
  fault : FaultCapture
deriving DecidableEq, Repr

/-! ### The device and the state -/

/-- The TZ4, block by block (Table 0-1). The motion ring and the slots stand oldest or lowest first. -/
structure Device where
  ctl          : ModeController
  hostA        : HostPort
  hostM        : HostPort
  planner      : Planner
  cal          : PerPort Calibration
  probe        : Option ProbeContext
  probeResult  : Option ProbeResult
  motion       : List MotionSample
  ports        : PerPort ModulePort
  slots        : List Slot
  composePoint : Nat
  composing    : Option Composition
  buffers      : List OutputBuffer
  link         : OutputLink
  events       : EventUnit
deriving DecidableEq, Repr

/-- Frame memory (0.2.2): (address, byte) pairs in one canonical form, addresses strictly rising and no byte 0. -/
abbrev Memory := List Host.Cell

/-- The state of the model: the device, frame memory, the counter that free values are applied to (the MODEL's own field)
and the commands that wait, first in, first out. -/
structure State where
  dev       : Device
  mem       : Memory
  freeIndex : Nat
  pending   : List Instr
deriving DecidableEq, Repr

/-- Why a step stops with a fault. -/
inductive Fault where
  /-- Raised by PIXEL_LINE, PROBE_COMPLETE and COMPOSITION_COMPLETE when a frame they write or read would reach beyond
  the 268,435,456 bytes of frame memory (0.2.2), an address the manual says does not exist. The slots, buffers and sizes
  that the commands set never lead there, so no run from reset meets it. Safe: the model stops where the device has
  nothing to access. -/
  | frameMemoryRange
deriving DecidableEq, Repr

/-- Why a step refuses. -/
inductive Refusal where
  /-- Raised by the dispatch for a command that has no meaning in the model; none is left. Safe: the model stops. -/
  | notModelled (mnemonic : String)
deriving DecidableEq, Repr

/-! ### Power-on values -/

/-- The same value for every port. -/
def PerPort.all {α : Type} (x : α) : PerPort α := ⟨x, x, x, x⟩

/-- R167: the output size absent, the other fields at the defaults of Table 10-2. -/
def OutputConfig.initial : OutputConfig :=
  { size := none, period := 33333, latency := 2, guard := 4000, exposureRef := 10000 }

/-- R167: the defaults of Table 10-3. -/
def HandoffConfig.initial : HandoffConfig :=
  { hysteresis := 20, blendLength := 6, prepareLimit := 12, deferralLimit := 15, probeThreshold := 96,
    motionLimit := 20000, backoff := 60, stallLimit := 3, deadLimit := 45, freezeLimit := 15, guardLength := 3,
    staleLimit := 20000 }

/-- R160, R164, R166: DORMANT, the time base 0 and stopped, no session. -/
def ModeController.initial : ModeController :=
  { mode := .dormant, enteredAt := 0, timeBase := 0, session := none, output := OutputConfig.initial,
    handoff := HandoffConfig.initial, resetLow := false, addrHigh := false }

/-- R161, R174: reply slot NOT_READY with length 0, reset cause POWER_ON. -/
def HostPort.initial : HostPort :=
  { reply := { status := .notReady, payload := [] }, cause := .powerOn, bus := none }

/-- R3, R4: unwritten, every other field 0. -/
def Calibration.initial : Calibration := { written := false, base := 0, trim := 0, cx := 0, cy := 0, margin := 0 }

/-- R37, R51, R55, R58, R74, R76, R81, R82, R99, R101, R103. -/
def Planner.initial : Planner :=
  { nominal := 100, applied := 100, queue := [], ramp := none, state := none, context := none,
    roles := PerPort.all .none, bars := PerPort.all 0, hold := 0, guard := 0, captureSelect := .none,
    markPending := false, plans := [], lastChange := none }

/-- R104, R107, R115, R123, R124. -/
def ModulePort.initial : ModulePort :=
  { config := none, state := .off, since := 0, window := 0, lanes := none, newestExposure := 0, frameCounter := 0,
    expectations := [], pendingFsync := none, fsyncIssued := false, filling := none, badPeriods := 0, goodRun := 0,
    stallAge := 0, allowance := .available, good := 0, missed := 0, faulted := 0, dropped := 0, skips := 0,
    lastPulse := none }

/-- R127: a FREE slot, its optional fields absent and its use count 0. -/
def Slot.freed (id : Nat) : Slot :=
  { id := id, state := .free, owner := none, period := none, centre := none, exposure := 0, settled := false,
    useCount := 0 }

/-- R127: the twelve slots, every one FREE. -/
def Device.freeSlots : List Slot := (List.range 12).map Slot.freed

/-- R141: a FREE buffer with its optional fields absent. -/
def OutputBuffer.freed (id : Nat) : OutputBuffer := { id := id, state := .free, period := none, trailer := none }

/-- R141: the three buffers, every one FREE. -/
def Device.freeBuffers : List OutputBuffer := (List.range 3).map OutputBuffer.freed

/-- R142. -/
def OutputLink.initial : OutputLink :=
  { pending := none, sending := none, nonFresh := 0, frozenReported := false, lastTrailer := none, fence := none }

/-- The 21 event kinds in kind order (Table 12-1). -/
def EventKind.all : List EventKind :=
  [.zoomDone, .zoomDropped, .handoffStarted, .handoffDone, .handoffAbandoned, .portLinked, .portRecovered, .fenceDone,
   .holdExpired, .captureEdge, .modeChanged, .motionOverrun, .frameDropped, .outputRepeat, .faultCaptured,
   .handoffAborted, .portStalled, .portDead, .frameFault, .outputFrozen, .noSource]

/-- The class column of Table 12-1. -/
def EventKind.isFault : EventKind → Bool
  | .handoffAborted | .portStalled | .portDead | .frameFault | .outputFrozen | .noSource => true
  | _ => false

/-- R182: not pending; the fault kinds enabled and URGENT, the normal kinds disabled and NORMAL. -/
def EventRecord.initial (k : EventKind) : EventRecord :=
  { kind := k, pending := false, count := 0, detail := none, enabled := k.isFault, urgent := k.isFault }

/-- R182: the default settings of one command port, the urgent master on and the normal master off. -/
def EventSet.initial : EventSet :=
  { records := EventKind.all.map EventRecord.initial, urgentMaster := true, normalMaster := false }

/-- R182, R185: every record cleared, the fault capture record not present. -/
def EventUnit.initial : EventUnit :=
  { a := EventSet.initial, m := EventSet.initial, fault := { captured := none, overflow := 0 } }

/-- The power-on values of every block, with reset cause POWER_ON on both ports (R160, R161). -/
def Device.initial : Device :=
  { ctl := ModeController.initial, hostA := HostPort.initial, hostM := HostPort.initial, planner := Planner.initial,
    cal := PerPort.all Calibration.initial, probe := none, probeResult := none, motion := [],
    ports := PerPort.all ModulePort.initial, slots := Device.freeSlots, composePoint := 0, composing := none,
    buffers := Device.freeBuffers, link := OutputLink.initial, events := EventUnit.initial }

/-- The machine right after power-on, RESET_N high and ADDR sampled low (assumption log 9), no command waiting. -/
def State.reset : State := { dev := Device.initial, mem := [], freeIndex := 0, pending := [] }

end Sys2Proof.Machine
end

