-- ==== Sys2Proof/Machine/Operands.lean ====
section
/-! DEFINITION. Sys2Proof/Machine/Operands.lean: the operand forms of messages and replies: the numbers a payload byte may
stand for (R173, Table 11-3), the field widths of a reply (R175) and the number of each enumerated value, which is its
place in the owning chapter's table. -/

namespace Sys2Proof

/-- The port a payload byte names; above 3 it names none, and each command refuses it BAD_PARAM (11.5). -/
def PortId.ofNat? : Nat → Option PortId
  | 0 => some .p0
  | 1 => some .p1
  | 2 => some .p2
  | 3 => some .p3
  | _ => none

/-- 4, 2 or 1 (R107). -/
def Lanes.toNat : Lanes → Nat
  | .four => 4
  | .two => 2
  | .one => 1

end Sys2Proof

namespace Sys2Proof.Machine

open Sys2Proof

/-! ### Reply fields -/

/-- The low `width` bytes of a number, least significant first (11.2, R154). -/
def bytesLE : Nat → Nat → List Byte
  | 0, _ => []
  | width + 1, n => BitVec.ofNat 8 n :: bytesLE width (n / 256)

/-- A signed field of the given width, in two's complement (11.2, R154). -/
def signedLE (width : Nat) (x : Int) : List Byte := bytesLE width (x % (256 ^ width : Nat)).toNat

/-- A one-byte field (R175). -/
def u8 (n : Nat) : List Byte := bytesLE 1 n

/-- A two-byte field: zoom code, coordinate, 16-bit counter (R175). -/
def u16 (n : Nat) : List Byte := bytesLE 2 n

/-- A four-byte field: a period index modulo 2^32, or a µs quantity (R175). -/
def u32 (n : Nat) : List Byte := bytesLE 4 n

/-- A six-byte field: a time base value (R175). -/
def u48 (n : Nat) : List Byte := bytesLE 6 n

/-- A flag: 1 for yes, 0 for no. R175 gives the width alone; the values are the model's choice (assumption log 40). -/
def flagByte (b : Bool) : List Byte := u8 (if b then 1 else 0)

/-- An optional field: a presence byte, then the field, or zero bytes of its width (R175). -/
def optionalField {α : Type} (width : Nat) (field : α → List Byte) : Option α → List Byte
  | some x => 1 :: field x
  | none => 0 :: List.replicate width 0

/-- A module port's number in one byte. -/
def portByte (m : PortId) : List Byte := u8 m.toNat

/-! ### Enumerated values, numbered from 0 in the order of their table -/

/-- Table 10-1. -/
def Mode.number : Mode → Nat
  | .dormant => 0
  | .waking => 1
  | .standby => 2
  | .streaming => 3
  | .stopping => 4
  | .resetting => 5

/-- The order of R161 (assumption log 13). -/
def ResetCause.number : ResetCause → Nat
  | .powerOn => 0
  | .pin => 1
  | .soft => 2
  | .cleared => 3

/-- Table 4-1. -/
def Role.number : Role → Nat
  | .active => 0
  | .dest => 1
  | .warm => 2
  | .cold => 3
  | .none => 4

/-- Table 4-2; the trailer's byte 22 uses the same numbers (Table 9-6). -/
def HandoffState.number : HandoffState → Nat
  | .steady => 0
  | .prepare => 1
  | .probe => 2
  | .blend => 3
  | .noSource => 4

/-- UP, DOWN: Table 4-3, and the reasons of HANDOFF_STARTED (Table 12-1). -/
def Direction.number : Direction → Nat
  | .up => 0
  | .down => 1

/-- The order of Table 4-3 (assumption log 13). -/
def Accepted.number : Accepted → Nat
  | .yes => 0
  | .no => 1
  | .skipped => 2

/-- BLEND, FORCED, FALLBACK: the reasons of HANDOFF_DONE (Table 12-1). -/
def ChangeReason.number : ChangeReason → Nat
  | .blend => 0
  | .forced => 1
  | .fallback => 2

/-- REVERSED, TIMEOUT, STOPPED: the reasons of HANDOFF_ABANDONED (Table 12-1). -/
def AbandonReason.number : AbandonReason → Nat
  | .reversed => 0
  | .timeout => 1
  | .stopped => 2

/-- STALLED, PORT_RESET, AUTO_RESET: the reasons of HANDOFF_ABORTED (Table 12-1). -/
def LossReport.number : LossReport → Nat
  | .stalled => 0
  | .down .portReset => 1
  | .down .autoReset => 2

/-- PORT_RESET, AUTO_RESET: the reasons of NO_SOURCE (Table 12-1). -/
def DownCause.number : DownCause → Nat
  | .portReset => 0
  | .autoReset => 1

/-- Table 7-2. -/
def PortState.number : PortState → Nat
  | .off => 0
  | .resetting => 1
  | .seeking => 2
  | .linked => 3
  | .stalled => 4
  | .dead => 5

/-- The PORT_CONFIG payload's numbers: 0 WARM, 1 COLD (Table 11-3). -/
def Standby.number : Standby → Nat
  | .warm => 0
  | .cold => 1

/-- The order of Table 7-4. -/
def Allowance.number : Allowance → Nat
  | .available => 0
  | .spent => 1

/-- The order of Table 8-1. -/
def SlotState.number : SlotState → Nat
  | .free => 0
  | .filling => 1
  | .ready => 2
  | .held => 3

/-- The order of Table 9-1. -/
def BufferState.number : BufferState → Nat
  | .free => 0
  | .composing => 1
  | .complete => 2
  | .sending => 3
  | .last => 4

/-- The order of Table 9-3. -/
def EmissionKind.number : EmissionKind → Nat
  | .fresh => 0
  | .repeated => 1
  | .grey => 2

/-- The CAPTURE_CONFIG payload's numbers (Table 11-3). -/
def CaptureSelect.number : CaptureSelect → Nat
  | .none => 0
  | .rising => 1
  | .falling => 2
  | .both => 3

/-- RISING, FALLING: the reasons of CAPTURE_EDGE (Table 12-1). -/
def edgeNumber : Edge → Nat
  | .rising => 0
  | .falling => 1

/-- LANES_4, LANES_2, LANES_1: the reasons of PORT_LINKED (Table 12-1). -/
def linkReason : Lanes → Nat
  | .four => 0
  | .two => 1
  | .one => 2

/-- MISSED, FAULTED: the reasons of PORT_STALLED (Table 12-1). -/
def BadReason.number : BadReason → Nat
  | .missed => 0
  | .faulted => 1

/-- CRC, SIZE, SHORT, TIMEOUT, UNSOLICITED: the reasons of FRAME_FAULT (Table 12-1). -/
def FaultReason.number : FaultReason → Nat
  | .crc => 0
  | .size => 1
  | .short => 2
  | .timeout => 3
  | .unsolicited => 4

/-- LATE, BUSY, NO_FRAME: the reasons of OUTPUT_REPEAT and OUTPUT_FROZEN (Table 12-1). -/
def RepeatCause.number : RepeatCause → Nat
  | .late => 0
  | .busy => 1
  | .noFrame => 2

/-- The number of an event kind, its place in kind order (Table 12-1). -/
def EventKind.number : EventKind → Nat
  | .zoomDone => 0
  | .zoomDropped => 1
  | .handoffStarted => 2
  | .handoffDone => 3
  | .handoffAbandoned => 4
  | .portLinked => 5
  | .portRecovered => 6
  | .fenceDone => 7
  | .holdExpired => 8
  | .captureEdge => 9
  | .modeChanged => 10
  | .motionOverrun => 11
  | .frameDropped => 12
  | .outputRepeat => 13
  | .faultCaptured => 14
  | .handoffAborted => 15
  | .portStalled => 16
  | .portDead => 17
  | .frameFault => 18
  | .outputFrozen => 19
  | .noSource => 20

/-! ### Payload bytes that name a value -/

/-- 0 WARM, 1 COLD; any other number is refused BAD_PARAM (R173). -/
def Standby.ofNat? : Nat → Option Standby
  | 0 => some .warm
  | 1 => some .cold
  | _ => none

/-- 0 NONE, 1 RISING, 2 FALLING, 3 BOTH; any other number is refused BAD_PARAM (R101). -/
def CaptureSelect.ofNat? : Nat → Option CaptureSelect
  | 0 => some .none
  | 1 => some .rising
  | 2 => some .falling
  | 3 => some .both
  | _ => Option.none

/-- Whether the selection includes a transition's direction (R102). -/
def CaptureSelect.includes : CaptureSelect → Edge → Bool
  | .none, _ => false
  | .rising, .rising => true
  | .rising, .falling => false
  | .falling, .rising => false
  | .falling, .falling => true
  | .both, _ => true

/-- The lane count of seek window `w` (0..11): 4, 2 and 1 in each round (R111). -/
def seekLanes (w : Nat) : Lanes :=
  if w % 3 = 0 then .four else if w % 3 = 1 then .two else .one

end Sys2Proof.Machine
end

