-- ==== Sys2Proof/Machine/Flags.lean ====
section
/-! DEFINITION. Sys2Proof/Machine/Flags.lean: status codes (Table 11-2), the trailer's flag bits (Table 9-7), the presence
bits of the trailer and of GET_EVENTS, and the 53-byte layout of the trailer (Table 9-6). -/

namespace Sys2Proof.Machine

open Sys2Proof

/-- Table 11-2. -/
def Status.code : Status → Nat
  | .ok => 0x00
  | .accepted => 0x01
  | .clamped => 0x02
  | .ignored => 0x03
  | .busy => 0x10
  | .wrongMode => 0x11
  | .badLength => 0x12
  | .badParam => 0x13
  | .unknownCommand => 0x14
  | .locked => 0x15
  | .queueFull => 0x16
  | .fenceBusy => 0x17
  | .noSource => 0x18
  | .notReady => 0xFF

/-- The number whose bit n is the n-th flag of the list. -/
def bitsOf : List Bool → Nat
  | [] => 0
  | b :: rest => (if b then 1 else 0) + 2 * bitsOf rest

/-- Table 9-7: bits 0 to 12; bits 13 to 15 are 0. -/
def TrailerFlags.bits (f : TrailerFlags) : Nat :=
  bitsOf [f.zoomHeld, f.lateA, f.lateD, f.alphaForced, f.edge, f.floorFlag, f.noMotion, f.stale, f.lowConfidence,
    f.probeSkipped, f.repeated, f.grey, f.captureMark]

/-- R154: 0..3, or 0xFF for an absent port. -/
def trailerPort : Option PortId → List Byte
  | some m => portByte m
  | none => u8 0xFF

/-- R154: four 16-bit values, or four zeros for an absent window. -/
def trailerWindow : Option Window → List Byte
  | some w => u16 w.x0 ++ u16 w.y0 ++ u16 w.w ++ u16 w.h
  | none => u16 0 ++ u16 0 ++ u16 0 ++ u16 0

/-- The first 53 bytes of the trailer line (Table 9-6). -/
def Trailer.bytes (t : Trailer) : List Byte :=
  u32 t.period ++ u32 (t.activePeriod.getD 0) ++ u32 (t.destPeriod.getD 0) ++ u16 t.nominal ++ u16 t.applied ++
    trailerPort t.active ++ trailerPort t.dest ++ u16 t.alpha ++ u8 (t.requestId.getD 0) ++
    u8 (bitsOf [t.requestId.isSome, t.activePeriod.isSome, t.destPeriod.isSome]) ++ u8 t.state.number ++
    signedLE 1 t.rx ++ signedLE 1 t.ry ++ u16 t.flags.bits ++ signedLE 2 t.ex ++ signedLE 2 t.ey ++ u48 t.centre ++
    trailerWindow t.activeWindow ++ trailerWindow t.destWindow

/-- The presence byte of a listed event record (R183): bit 0 port, 1 request id, 2 period, 3 reason, 4 zooms. -/
def EventDetail.presence (d : EventDetail) : Nat :=
  bitsOf [d.port.isSome, d.requestId.isSome, d.period.isSome, d.reason.isSome, d.zooms.isSome]

end Sys2Proof.Machine
end

