-- ==== Sys2Proof/Machine/Ops.lean ====
section
/-! DEFINITION. Sys2Proof/Machine/Ops.lean: the named operations over the state that every meaning is written with: a
value for each port, frame memory, the mode and the cadence, the reply slots, and raising an event. -/

namespace Sys2Proof.Machine

open Sys2Proof

/-! ### One value for each port -/

/-- The value held for a port. -/
def PerPort.get {α : Type} (v : PerPort α) : PortId → α
  | .p0 => v.p0
  | .p1 => v.p1
  | .p2 => v.p2
  | .p3 => v.p3

/-- The values with one port's replaced. -/
def PerPort.set {α : Type} (v : PerPort α) (m : PortId) (x : α) : PerPort α :=
  match m with
  | .p0 => { v with p0 := x }
  | .p1 => { v with p1 := x }
  | .p2 => { v with p2 := x }
  | .p3 => { v with p3 := x }

/-- The same function applied to every port's value. -/
def PerPort.map {α β : Type} (f : α → β) (v : PerPort α) : PerPort β :=
  ⟨f v.p0, f v.p1, f v.p2, f v.p3⟩

/-- The four values, port 0 first. -/
def PerPort.toList {α : Type} (v : PerPort α) : List α := [v.p0, v.p1, v.p2, v.p3]

/-- The first member of a list that no other member beats, `beats` being a strict order; of equals, the one that stands
first. -/
def bestBy {α : Type} (beats : α → α → Bool) : List α → Option α
  | [] => none
  | x :: rest =>
    match bestBy beats rest with
    | none => some x
    | some b => if beats b x then some b else some x

/-! ### Frame memory -/

/-- 0.2.2: 256 MiB. -/
def frameMemoryBytes : Nat := 268435456

/-- R127 (8.1): each slot's region. -/
def slotRegionBytes : Nat := 18874368

/-- 9.1: each output buffer's region. -/
def bufferRegionBytes : Nat := 12441600

/-- Where a slot's region begins: the twelve regions stand first, in slot order (assumption log 8). -/
def slotBase (id : Nat) : Nat := id * slotRegionBytes

/-- Where a buffer's region begins: after the slots' regions, in buffer order (assumption log 8). -/
def bufferBase (id : Nat) : Nat := 12 * slotRegionBytes + id * bufferRegionBytes

/-- The bytes a W×H picture in YUV 4:2:0 takes (8.1): a luma plane and two chroma planes of a quarter its size. -/
def pictureBytes (w h : Nat) : Nat := w * h + 2 * ((w / 2) * (h / 2))

/-- What a byte that nothing has written reads as (assumption log 8). -/
def unwrittenByte : Byte := 0

/-- One byte of frame memory. -/
def Memory.read : Memory → Nat → Byte
  | [], _ => unwrittenByte
  | (b, w) :: rest, a => if a = b then w else Memory.read rest a

/-- One byte written, the canonical form kept. -/
def Memory.write : Memory → Nat → Byte → Memory
  | [], a, v => if v = unwrittenByte then [] else [(a, v)]
  | (b, w) :: rest, a, v =>
    if a < b then (if v = unwrittenByte then (b, w) :: rest else (a, v) :: (b, w) :: rest)
    else if a = b then (if v = unwrittenByte then rest else (a, v) :: rest)
    else (b, w) :: Memory.write rest a v

/-- Bytes written one after another from an address up. -/
def Memory.writeBytes : Memory → Nat → List Byte → Memory
  | m, _, [] => m
  | m, a, v :: rest => Memory.writeBytes (Memory.write m a v) (a + 1) rest

/-- Every listed address is above the bound, the addresses rise strictly, and no listed byte is the one an unlisted
address reads as. -/
def Memory.wfAbove : Option Nat → Memory → Bool
  | _, [] => true
  | bound, (a, v) :: rest =>
    (match bound with | none => true | some b => decide (b < a)) && decide (v ≠ unwrittenByte) &&
      Memory.wfAbove (some a) rest

/-- The canonical form of frame memory. -/
def Memory.wf (m : Memory) : Bool := Memory.wfAbove none m

/-! ### The device's parts -/

/-- The outcome of a step. -/
abbrev Result := Host.Outcome State Fault Refusal

/-- The state with its device changed by a function. -/
def State.onDevice (s : State) (f : Device → Device) : State := { s with dev := f s.dev }

/-- A module port. -/
def Device.port (d : Device) (m : PortId) : ModulePort := d.ports.get m

/-- A module port changed by a function. -/
def Device.onPort (d : Device) (m : PortId) (f : ModulePort → ModulePort) : Device :=
  { d with ports := d.ports.set m (f (d.ports.get m)) }

/-- The View Planner's state changed by a function. -/
def Device.onPlanner (d : Device) (f : Planner → Planner) : Device := { d with planner := f d.planner }

/-- The Output Link's state changed by a function. -/
def Device.onLink (d : Device) (f : OutputLink → OutputLink) : Device := { d with link := f d.link }

/-- The Mode Controller's state changed by a function. -/
def Device.onCtl (d : Device) (f : ModeController → ModeController) : Device := { d with ctl := f d.ctl }

/-- The operating mode. -/
def Device.mode (d : Device) : Mode := d.ctl.mode

/-- The time base. -/
def Device.now (d : Device) : Nat := d.ctl.timeBase

/-- A port's role (R53). -/
def Device.role (d : Device) (m : PortId) : Role := d.planner.roles.get m

/-- A port's calibration record, read as it stands (R10). -/
def Device.calOf (d : Device) (m : PortId) : Calibration := d.cal.get m

/-- The quota of R127: that of the port's configuration, 0 when it is unconfigured (R104, R127). -/
def Device.quota (d : Device) (m : PortId) : Nat :=
  match (d.port m).config with
  | some c => c.quota
  | none => 0

/-- The configured frame size of a port, Wm and Hm; (0, 0) when it is unconfigured. -/
def Device.frameSize (d : Device) (m : PortId) : Nat × Nat :=
  match (d.port m).config with
  | some c => (c.width, c.height)
  | none => (0, 0)

/-- The output size, Wo and Ho; (0, 0) when it is absent. -/
def Device.outputSize (d : Device) : Nat × Nat := d.ctl.output.size.getD (0, 0)

/-! ### The cadence (R165, R166) -/

/-- The current period index, absent outside a session (R166). -/
def Device.currentPeriod (d : Device) : Option Nat := d.ctl.session.map Session.current

/-- The current period index as a number, in the modes where it exists. -/
def Device.period (d : Device) : Nat := (d.currentPeriod).getD 0

/-- T_0 (R166); 0 when there is no session. -/
def Device.sessionStart (d : Device) : Nat := ((d.ctl.session).map Session.start).getD 0

/-- T_k = T_0 + k×P (R165). -/
def Device.periodTime (d : Device) (k : Nat) : Nat := d.sessionStart + k * d.ctl.output.period

/-- C_k = T_{k+L} − G (R165). -/
def Device.composeTime (d : Device) (k : Nat) : Nat := d.periodTime (k + d.ctl.output.latency) - d.ctl.output.guard

/-- The emission start of frame k, T_{k+L} (R165). -/
def Device.emissionTime (d : Device) (k : Nat) : Nat := d.periodTime (k + d.ctl.output.latency)

/-- The TX done of frame k, T_{k+L} + P − 500 (R149). -/
def Device.txDoneTime (d : Device) (k : Nat) : Nat := d.emissionTime k + d.ctl.output.period - 500

/-! ### Reply slots (R174) -/

/-- A command port's interpreter. -/
def Device.host (d : Device) : CmdPort → HostPort
  | .a => d.hostA
  | .m => d.hostM

/-- One interpreter replaced; the other is left as it is. -/
def Device.setHost (d : Device) (p : CmdPort) (h : HostPort) : Device :=
  match p with
  | .a => { d with hostA := h }
  | .m => { d with hostM := h }

/-- R174: a message's reply replaces the slot of its port whole. -/
def Device.setReply (d : Device) (p : CmdPort) (r : Reply) : Device := d.setHost p { d.host p with reply := r }

/-- R161: one port's copy of the reset cause. -/
def Device.setCause (d : Device) (p : CmdPort) (c : ResetCause) : Device := d.setHost p { d.host p with cause := c }

/-! ### Events (R180, R181, R185) -/

/-- R180: one record's update. -/
def EventRecord.raise (r : EventRecord) (x : EventDetail) : EventRecord :=
  if r.pending then { r with count := min 255 (r.count + 1) }
  else { r with pending := true, count := 1, detail := some x }

/-- R180: the record of the kind is updated, the others are left. -/
def EventSet.raise (e : EventSet) (k : EventKind) (x : EventDetail) : EventSet :=
  { e with records := e.records.map fun r => if r.kind = k then r.raise x else r }

/-- R180: both ports' records, whatever their enables, urgencies and masters. -/
def EventUnit.record (e : EventUnit) (k : EventKind) (x : EventDetail) : EventUnit :=
  { e with a := e.a.raise k x, m := e.m.raise k x }

/-- R185: a fault-class event fills the fault capture record when it is not present, and FAULT_CAPTURED is raised with the
captured port and period; when it is present, the overflow count rises. -/
def EventUnit.capture (e : EventUnit) (time : Nat) (k : EventKind) (x : EventDetail) : EventUnit :=
  match e.fault.captured with
  | some _ => { e with fault := { e.fault with overflow := min 255 (e.fault.overflow + 1) } }
  | none =>
    EventUnit.record
      { e with fault := { e.fault with
          captured := some { kind := k, port := x.port, period := x.period, time := time, reason := x.reason } } }
      .faultCaptured
      { port := x.port, requestId := none, period := x.period, reason := some k.number, zooms := none }

/-- R180: an event raised at a time base value. -/
def EventUnit.raise (e : EventUnit) (time : Nat) (k : EventKind) (x : EventDetail) : EventUnit :=
  if k.isFault then (e.record k x).capture time k x else e.record k x

/-- An event raised by the device, now. -/
def Device.raise (d : Device) (k : EventKind) (x : EventDetail) : Device :=
  { d with events := d.events.raise d.now k x }

/-- An event detail with no field present. -/
def EventDetail.empty : EventDetail := { port := none, requestId := none, period := none, reason := none, zooms := none }

/-- A detail of a port, a period and a reason. -/
def EventDetail.ofPort (m : PortId) (k : Option Nat) (reason : Option Nat) : EventDetail :=
  { EventDetail.empty with port := some m, period := k, reason := reason }

/-- A detail of a period and a reason. -/
def EventDetail.ofPeriod (k : Option Nat) (reason : Option Nat) : EventDetail :=
  { EventDetail.empty with period := k, reason := reason }

/-- A command port's event set. -/
def Device.eventSet (d : Device) : CmdPort → EventSet
  | .a => d.events.a
  | .m => d.events.m

/-- One command port's event set replaced; the other is left as it is. -/
def Device.setEventSet (d : Device) (p : CmdPort) (e : EventSet) : Device :=
  match p with
  | .a => { d with events := { d.events with a := e } }
  | .m => { d with events := { d.events with m := e } }

/-- R181: whether a record drives its port's attention line. -/
def EventSet.drives (e : EventSet) (r : EventRecord) : Bool :=
  r.pending && r.enabled && (if r.urgent then e.urgentMaster else e.normalMaster)

/-- R181: whether at least one record drives the line. -/
def EventSet.asserted (e : EventSet) : Bool := e.records.any e.drives

/-- The attention line ATTN_A or ATTN_M, true when asserted (driven low); deasserted while RESET_N is low (R160, R181).
The line follows the records and masters at once, so it is computed from them. -/
def Device.attention (d : Device) (p : CmdPort) : Bool := !d.ctl.resetLow && (d.eventSet p).asserted

/-! ### Modes (R159) -/

/-- R159: the device enters a mode, and MODE_CHANGED is raised with the mode as its reason and the current period index
when one exists. -/
def Device.enterMode (d : Device) (m : Mode) : Device :=
  let entered := d.onCtl fun c => { c with mode := m }
  entered.raise .modeChanged (EventDetail.ofPeriod entered.currentPeriod (some m.number))

end Sys2Proof.Machine
end

