-- ==== Sys2Proof/Machine/Geometry.lean ====
section
/-! DEFINITION. Sys2Proof/Machine/Geometry.lean: the rounding words (R18), the derived bounds of a calibration record
(R11, R12, R14), the Geometry Unit's window (R21 to R27) and the scaler mapping (R31 to R34). Every quantity is exact; a
division is rounded only by the word its formula names. -/

namespace Sys2Proof.Machine

open Sys2Proof

/-! ### Rounding words (Table 2-1), each of the rational n / d with d above 0 -/

/-- The greatest integer not above n / d. -/
def floorDiv (n : Int) (d : Nat) : Int := n / (d : Int)

/-- The least integer not below n / d. -/
def ceilDiv (n : Int) (d : Nat) : Int := -((-n) / (d : Int))

/-- n / d with its fraction removed, toward zero. -/
def truncDiv (n : Int) (d : Nat) : Int := n.tdiv (d : Int)

/-- The greatest even integer not above n / d. -/
def evenFloorDiv (n : Int) (d : Nat) : Int := 2 * (n / ((2 * d : Nat) : Int))

/-- The least even integer not below n / d. -/
def evenCeilDiv (n : Int) (d : Nat) : Int := 2 * (-((-n) / ((2 * d : Nat) : Int)))

/-- The even integer nearest n / d among those between 0 and it. -/
def evenTowardZeroDiv (n : Int) (d : Nat) : Int := 2 * n.tdiv ((2 * d : Nat) : Int)

/-! ### Derived bounds -/

/-- The lower bound L_m = ceil(b × (1000 + g) / 1000) (R11); 0 for an unwritten record, whose b and g are 0 (R9). -/
def Calibration.lower (c : Calibration) : Nat := (ceilDiv (c.base * (1000 + c.margin)) 1000).toNat

/-- The down threshold D_m = ceil(L_m × (1000 + H) / 1000) (R12). -/
def Calibration.down (c : Calibration) (h : Nat) : Nat := (ceilDiv (c.lower * (1000 + h)) 1000).toNat

/-- The up threshold U_m = ceil(L_m × (1000 + 2×H) / 1000) (R12). -/
def Calibration.up (c : Calibration) (h : Nat) : Nat := (ceilDiv (c.lower * (1000 + 2 * h)) 1000).toNat

/-- The lower bounds of the written records. -/
def Device.writtenBounds (d : Device) : List Nat :=
  (d.cal.toList.filter fun c => c.written).map Calibration.lower

/-- Zmin: the larger of 50 and the smallest lower bound among the written records, 50 when none is written (R14). -/
def Device.zmin (d : Device) : Nat :=
  match d.writtenBounds with
  | [] => 50
  | l :: rest => max 50 (rest.foldl min l)

/-- A zoom code brought into the zoom limits Zmin..10000 (R14). -/
def Device.clampZoom (d : Device) (z : Nat) : Nat := min 10000 (max d.zmin z)

/-- D_m with the hysteresis in force (R13). -/
def Device.downOf (d : Device) (m : PortId) : Nat := (d.calOf m).down d.ctl.handoff.hysteresis

/-- U_m with the hysteresis in force (R13). -/
def Device.upOf (d : Device) (m : PortId) : Nat := (d.calOf m).up d.ctl.handoff.hysteresis

/-! ### The window -/

/-- w_min = max(64, even-ceil(Wo / 16)) (R22). -/
def minWidth (wo : Nat) : Nat := max 64 (evenCeilDiv wo 16).toNat

/-- R21: the width for the zoom, capped at Wm. -/
def WindowInputs.cappedWidth (i : WindowInputs) : Nat :=
  min i.wm (evenFloorDiv (i.wm * i.base * 1000 : Nat) (i.zoom * i.trim)).toNat

/-- R22: the width after the floor. -/
def WindowInputs.flooredWidth (i : WindowInputs) : Nat := max (minWidth i.wo) i.cappedWidth

/-- R22: whether the floor was used. -/
def WindowInputs.floored (i : WindowInputs) : Bool := decide (i.cappedWidth < minWidth i.wo)

/-- R23: the height for the width of R22. -/
def WindowInputs.wantedHeight (i : WindowInputs) : Nat := (evenFloorDiv (i.flooredWidth * i.ho : Nat) i.wo).toNat

/-- R23: width and height, refitted to the frame height when the height exceeds Hm. -/
def WindowInputs.size (i : WindowInputs) : Nat × Nat :=
  if i.wantedHeight > i.hm then ((evenFloorDiv (i.hm * i.wo : Nat) i.ho).toNat, i.hm)
  else (i.flooredWidth, i.wantedHeight)

/-- R24: a shift in output pixels brought to module pixels through the window's own scale. -/
def moduleShift (e : Int) (size out : Nat) : Int := evenTowardZeroDiv (truncDiv (e * size) out) 1

/-- R25: the unclamped origin in one axis. -/
def unclampedOrigin (centre size : Nat) (shift residual : Int) : Int :=
  evenFloorDiv ((centre : Int) - (size / 2 : Nat) + shift + residual) 1

/-- R26: the origin limited to 0..frame − size. -/
def clampOrigin (x : Int) (frame size : Nat) : Int := max 0 (min x ((frame : Int) - size))

/-- R21 to R27: the window and its two flags. -/
def WindowInputs.answer (i : WindowInputs) : WindowAnswer :=
  let w := i.size.1
  let h := i.size.2
  let x := unclampedOrigin i.cx w (moduleShift i.ex w i.wo) i.rx
  let y := unclampedOrigin i.cy h (moduleShift i.ey h i.ho) i.ry
  let x0 := clampOrigin x i.wm w
  let y0 := clampOrigin y i.hm h
  { window := { x0 := x0.toNat, y0 := y0.toNat, w := w, h := h },
    edge := decide (x0 ≠ x) || decide (y0 ≠ y),
    floorFlag := i.floored }

/-- R20: the request for a port's window, its inputs taken from the configurations and the calibration record as they
stand. -/
def Device.windowInputs (d : Device) (m : PortId) (zoom : Nat) (ex ey rx ry : Int) : WindowInputs :=
  let c := d.calOf m
  { wm := (d.frameSize m).1, hm := (d.frameSize m).2, wo := d.outputSize.1, ho := d.outputSize.2,
    base := c.base, trim := c.trim, cx := c.cx, cy := c.cy, zoom := zoom, ex := ex, ey := ey, rx := rx, ry := ry }

/-- R19: the Geometry Unit's answer, at the moment of the request. -/
def Device.window (d : Device) (m : PortId) (zoom : Nat) (ex ey rx ry : Int) : WindowAnswer :=
  (d.windowInputs m zoom ex ey rx ry).answer

/-! ### The scaler mapping (R31 to R34) -/

/-- R31 and R32, one axis: the source position of an output index, in 256ths of a pixel, limited to the window. -/
def sourcePosition (origin size out i : Nat) : Nat :=
  let q : Int := 256 * origin + truncDiv (256 * ((2 * i + 1) * size - out)) (2 * out)
  (max (256 * (origin : Int)) (min q (256 * ((origin : Int) + size - 1)))).toNat

/-- R33: the sample interpolated at a position from up to four samples of the source. -/
def interpolate (src : Nat → Nat → Nat) (q r : Nat) : Nat :=
  let n := q / 256
  let fx := q % 256
  let m := r / 256
  let fy := r % 256
  (src n m * (256 - fx) * (256 - fy) + src (n + 1) m * fx * (256 - fy) + src n (m + 1) * (256 - fx) * fy +
    src (n + 1) (m + 1) * fx * fy + 32768) / 65536

/-- R33: the output sample at column i and row j of a window rendered to an output grid. -/
def renderSample (src : Nat → Nat → Nat) (win : Window) (out : Nat × Nat) (i j : Nat) : Nat :=
  interpolate src (sourcePosition win.x0 win.w out.1 i) (sourcePosition win.y0 win.h out.2 j)

/-- A size in a plane's samples: halved for chroma (R34). -/
def Plane.scale : Plane → Nat → Nat
  | .y, n => n
  | .u, n => n / 2
  | .v, n => n / 2

/-- The window of a plane: every quantity halved for chroma (R34). -/
def Window.inPlane (win : Window) (p : Plane) : Window :=
  { x0 := p.scale win.x0, y0 := p.scale win.y0, w := p.scale win.w, h := p.scale win.h }

/-- Where a plane begins in a stored W×H picture (8.1): luma, then U, then V. -/
def Plane.offset (p : Plane) (w h : Nat) : Nat :=
  match p with
  | .y => 0
  | .u => w * h
  | .v => w * h + (w / 2) * (h / 2)

/-- The address of a sample of a plane of a W×H picture stored from `base`. -/
def sampleAddress (base w h : Nat) (p : Plane) (col row : Nat) : Nat :=
  base + p.offset w h + row * p.scale w + col

/-- R35: the rendering of a window of the frame stored in a slot, one sample. -/
def renderFrame (mem : Memory) (slot : Nat) (frame : Nat × Nat) (win : Window) (out : Nat × Nat) (p : Plane)
    (i j : Nat) : Nat :=
  renderSample (fun col row => (mem.read (sampleAddress (slotBase slot) frame.1 frame.2 p col row)).toNat)
    (win.inPlane p) (p.scale out.1, p.scale out.2) i j

/-- R146: an output sample from both renderings, at weight α. -/
def blendSample (a d alpha : Nat) : Nat := (a * (256 - alpha) + d * alpha + 128) / 256

end Sys2Proof.Machine
end

