-- ==== Sys2Proof/Machine/Slots.lean ====
section
/-! DEFINITION. Sys2Proof/Machine/Slots.lean: the Slot Manager (Chapter 8): allocation, holding and releasing,
supersession, freeing on role and port-state change, pairing and the pair query. -/

namespace Sys2Proof.Machine

open Sys2Proof

/-! ### Records -/

/-- The slot with a given number. -/
def Device.slot? (d : Device) (id : Nat) : Option Slot := d.slots.find? fun s => s.id = id

/-- One slot changed by a function. -/
def Device.onSlot (d : Device) (id : Nat) (f : Slot → Slot) : Device :=
  { d with slots := d.slots.map fun s => if s.id = id then f s else s }

/-- R127: FREE, with no owner and no field of a frame. -/
def Slot.free (s : Slot) : Slot := Slot.freed s.id

/-- A READY or HELD slot, one that holds a complete good frame. -/
def Slot.complete (s : Slot) : Bool := decide (s.state = .ready) || decide (s.state = .held)

/-- A slot owned by a port: FILLING, READY or HELD (R127). -/
def Slot.ownedBy (s : Slot) (m : PortId) : Bool := decide (s.owner = some m)

/-- The number of slots a port owns. -/
def Device.ownedCount (d : Device) (m : PortId) : Nat := (d.slots.filter fun s => s.ownedBy m).length

/-! ### Allocation (R128) -/

/-- The lowest-numbered FREE slot. -/
def Device.lowestFree (d : Device) : Option Slot := d.slots.find? fun s => s.state = .free

/-- R128: below its quota the port is given the lowest-numbered FREE slot, which becomes FILLING with the fields of the
request; at its quota it is given none. -/
def Device.allocate (d : Device) (m : PortId) (period centre exposure : Nat) (settled : Bool) : Option Nat × Device :=
  if d.ownedCount m < d.quota m then
    match d.lowestFree with
    | some s =>
      (some s.id, d.onSlot s.id fun x =>
        { x with state := .filling, owner := some m, period := some period, centre := some centre,
                 exposure := exposure, settled := settled, useCount := 0 })
    | none => (none, d)
  else (none, d)

/-! ### Supersession (R134) -/

/-- The content periods of a port's READY and HELD slots. -/
def Device.completePeriods (d : Device) (m : PortId) : List Nat :=
  (d.slots.filter fun s => s.ownedBy m && s.complete).filterMap Slot.period

/-- The largest number of a list that meets a bound. -/
def largestWhere (keep : Nat → Bool) : List Nat → Option Nat
  | [] => none
  | k :: rest =>
    match largestWhere keep rest with
    | none => if keep k then some k else none
    | some b => if keep k && decide (b < k) then some k else some b

/-- p* of R134: the largest content period of the port's READY and HELD slots that does not exceed the compose point. -/
def Device.newestDue (d : Device) (m : PortId) : Option Nat :=
  largestWhere (fun k => decide (k ≤ d.composePoint)) (d.completePeriods m)

/-- R134: every READY slot of the port with a content period smaller than p* becomes FREE. -/
def Device.supersede (d : Device) (m : PortId) : Device :=
  match d.newestDue m with
  | none => d
  | some p =>
    { d with slots := d.slots.map fun s =>
        if s.ownedBy m && decide (s.state = .ready) && decide (s.period.getD 0 < p) then s.free else s }

/-- R132: the check made for every port. -/
def Device.supersedeAll (d : Device) : Device := PortId.all.foldl Device.supersede d

/-! ### Freeing on role and port-state change (R135, R119) -/

/-- Whether R135 frees a slot when its owner takes COLD or goes down: FILLING or READY, not HELD. -/
def Slot.unheld (s : Slot) : Bool := decide (s.state = .filling) || decide (s.state = .ready)

/-- R135: each FILLING and each READY slot of the port becomes FREE; a frame being filled is abandoned (R119). -/
def Device.freeUnheld (d : Device) (m : PortId) : Device :=
  Device.onPort { d with slots := d.slots.map fun s => if s.ownedBy m && s.unheld then s.free else s }
    m fun q => { q with filling := none }

/-- R138: at entry to STOPPING every FILLING and every READY slot becomes FREE. -/
def Device.freeAllUnheld (d : Device) : Device :=
  { d with slots := d.slots.map fun s => if s.unheld then s.free else s }

/-! ### Holding and releasing (R130, R131) -/

/-- R130: a hold raises the use count by 1, and a READY slot becomes HELD. -/
def Device.holdSlot (d : Device) (id : Nat) : Device :=
  d.onSlot id fun s => { s with state := .held, useCount := s.useCount + 1 }

/-- R131 step 1: whether a slot released to use count 0 becomes FREE. -/
def Device.releaseFrees (d : Device) (owner : Option PortId) : Bool :=
  match owner with
  | none => true
  | some m =>
    decide (d.mode = .stopping) || decide (d.role m = .cold) ||
      !(decide ((d.port m).state = .linked) || decide ((d.port m).state = .stalled))

/-- R131: a release lowers a HELD slot's use count by 1; at 0 the slot becomes FREE, or READY with the supersession check
made for its owner. -/
def Device.releaseSlot (d : Device) (id : Nat) : Device :=
  match d.slot? id with
  | none => d
  | some s =>
    if s.state ≠ .held then d
    else if 1 < s.useCount then d.onSlot id fun x => { x with useCount := x.useCount - 1 }
    else if d.releaseFrees s.owner then d.onSlot id Slot.free
    else
      match s.owner with
      | none => d.onSlot id Slot.free
      | some m => (d.onSlot id fun x => { x with state := .ready, useCount := 0 }).supersede m

/-- A release of a slot that may be absent. -/
def Device.releaseOption (d : Device) : Option Nat → Device
  | none => d
  | some id => d.releaseSlot id

/-! ### Pairing (R136, R137) -/

/-- The port's READY or HELD slot of a content period. -/
def Device.slotOf (d : Device) (m : PortId) (k : Nat) : Option Slot :=
  d.slots.find? fun s => s.ownedBy m && s.complete && decide (s.period = some k)

/-- R136: the slot that serves a port in the output frame of period k, and whether the answer is LATE. -/
def Device.pair (d : Device) (m : PortId) (k : Nat) : Option (Slot × Bool) :=
  match d.slotOf m k with
  | some s => some (s, false)
  | none =>
    match largestWhere (fun p => decide (p < k)) (d.completePeriods m) with
    | none => none
    | some p => (d.slotOf m p).map fun s => (s, true)

/-- R137: the largest content period that both ports hold a READY or HELD slot of, with the two slots. -/
def Device.pairQuery (d : Device) (a t : PortId) : Option (Slot × Slot) :=
  match largestWhere (fun k => (d.slotOf t k).isSome) (d.completePeriods a) with
  | none => none
  | some k =>
    match d.slotOf a k, d.slotOf t k with
    | some x, some y => some (x, y)
    | _, _ => none

end Sys2Proof.Machine
end

