-- ==== Sys2Proof/Machine/Motion.lean ====
section
/-! DEFINITION. Sys2Proof/Machine/Motion.lean: the Motion Store (Chapter 6): saturation, intake, the lookup for a capture
time and the motion level. The ring stands oldest first. -/

namespace Sys2Proof.Machine

open Sys2Proof

/-- R94: a shift limited into −trunc(size/8)..trunc(size/8). -/
def saturateShift (size : Nat) (e : Int) : Int := max (-((size / 8 : Nat) : Int)) (min ((size / 8 : Nat) : Int) e)

/-- R93, R95: the sample joins at the newest end; when the ring holds 32, the oldest is removed in the same step. -/
def ringIntake (ring : List MotionSample) (x : MotionSample) : List MotionSample :=
  if 32 ≤ ring.length then ring.drop 1 ++ [x] else ring ++ [x]

/-- R96: the newest sample whose stamp is at most t; of several with one stamp, the one taken last. -/
def chosenSample (ring : List MotionSample) (t : Nat) : Option MotionSample :=
  (ring.filter fun x => decide (x.stamp ≤ t)).getLast?

/-- R96: the shift for a capture time. -/
def Device.lookup (d : Device) (t : Nat) : MotionShift :=
  match chosenSample d.motion t with
  | none => { ex := 0, ey := 0, noMotion := true, stale := false }
  | some x => { ex := x.ex, ey := x.ey, noMotion := false, stale := decide (d.ctl.handoff.staleLimit < t - x.stamp) }

/-- R97: the motion level, the q of the newest sample; 0 when the ring is empty. -/
def Device.motionLevel (d : Device) : Nat :=
  match d.motion.getLast? with
  | some x => x.q
  | none => 0

end Sys2Proof.Machine
end

