-- ==== Sys2Proof/Machine/Sequencer.lean ====
section
/-! DEFINITION. Sys2Proof/Machine/Sequencer.lean: the hand-off sequencer (Chapters 1 and 4): candidates and the preferred
port, roles, the applied zoom, the endings of a hand-off, the reports and frame outcomes the View Planner takes, and the
start of a probe (R84). -/

namespace Sys2Proof.Machine

open Sys2Proof

/-! ### Candidates and the preferred port (R15 to R17) -/

/-- A fallback candidate: LINKED with a written record, whatever its bar (R15). -/
def Device.isFallbackCandidate (d : Device) (m : PortId) : Bool :=
  decide ((d.port m).state = .linked) && (d.calOf m).written

/-- A candidate: LINKED, its record written, its bar 0 (R15). -/
def Device.isCandidate (d : Device) (m : PortId) : Bool :=
  d.isFallbackCandidate m && decide (d.planner.bars.get m = 0)

/-- The ports in ascending number that meet a condition. -/
def portsWhere (keep : PortId → Bool) : List PortId := PortId.all.filter keep

/-- R16 step 1: the larger base zoom, and for equal ones the smaller lower bound. -/
def Device.longerThan (d : Device) (n m : PortId) : Bool :=
  decide ((d.calOf m).base < (d.calOf n).base) ||
    (decide ((d.calOf n).base = (d.calOf m).base) && decide ((d.calOf n).lower < (d.calOf m).lower))

/-- R16 step 2: the smaller lower bound, and for equal ones the larger base zoom. -/
def Device.closerThan (d : Device) (n m : PortId) : Bool :=
  decide ((d.calOf n).lower < (d.calOf m).lower) ||
    (decide ((d.calOf n).lower = (d.calOf m).lower) && decide ((d.calOf m).base < (d.calOf n).base))

/-- The longest port of a list (R16 step 1, R59). -/
def Device.longest (d : Device) (ports : List PortId) : Option PortId := bestBy d.longerThan ports

/-- R16: the preferred port for zoom z among a set of ports given in ascending number. -/
def Device.preferred (d : Device) (ports : List PortId) (z : Nat) : Option PortId :=
  match ports.filter fun m => decide ((d.calOf m).lower ≤ z) with
  | [] => bestBy d.closerThan ports
  | m :: rest => d.longest (m :: rest)

/-- The preferred port for the nominal zoom among the candidates (R73, R79, R168). -/
def Device.preferredCandidate (d : Device) : Option PortId :=
  d.preferred (portsWhere d.isCandidate) d.planner.nominal

/-- The fallback choice: the preferred port for the nominal zoom among the fallback candidates (R61). -/
def Device.fallbackChoice (d : Device) : Option PortId :=
  d.preferred (portsWhere d.isFallbackCandidate) d.planner.nominal

/-! ### Roles (R53) -/

/-- The port that holds role ACTIVE. -/
def Device.activePort (d : Device) : Option PortId := PortId.all.find? fun m => d.role m = .active

/-- The standby role: the one the port configuration names (R53); COLD for an unconfigured port. -/
def Device.standbyRole (d : Device) (m : PortId) : Role :=
  match (d.port m).config with
  | some c => (match c.policy with | .warm => .warm | .cold => .cold)
  | none => .cold

/-- R53: what a port that leaves ACTIVE or DEST takes: its standby role while LINKED or STALLED, COLD in any other
state. -/
def Device.restRole (d : Device) (m : PortId) : Role :=
  if (d.port m).state = .linked ∨ (d.port m).state = .stalled then d.standbyRole m else .cold

/-- A role taken; in STREAMING a port that takes COLD has its unheld slots freed at once (R53, R135). -/
def Device.setRole (d : Device) (m : PortId) (r : Role) : Device :=
  let e := d.onPlanner fun p => { p with roles := p.roles.set m r }
  if r = .cold ∧ d.mode = .streaming then e.freeUnheld m else e

/-- A port's bar set (R74). -/
def Device.setBar (d : Device) (m : PortId) (n : Nat) : Device :=
  d.onPlanner fun p => { p with bars := p.bars.set m n }

/-! ### The applied zoom (R58) -/

/-- The applied zoom of a hand-off state, from the nominal and the lower bounds of the ACTIVE and DEST ports. -/
def Device.appliedIn (d : Device) (st : HandoffState) : Nat :=
  match st, d.activePort with
  | .noSource, _ => d.planner.nominal
  | _, none => d.planner.nominal
  | .blend, some a =>
    max (max d.planner.nominal (d.calOf a).lower)
      (match d.planner.context with | some c => (d.calOf c.dest).lower | none => 0)
  | _, some a => max d.planner.nominal (d.calOf a).lower

/-- R58: the applied zoom computed for the state as it stands; no hand-off state leaves it. -/
def Device.recomputeApplied (d : Device) : Device :=
  match d.planner.state with
  | none => d
  | some st => d.onPlanner fun p => { p with applied := d.appliedIn st }

/-! ### Endings of a hand-off -/

/-- R55: the state becomes STEADY and the context is emptied in the same step. -/
def Device.endHandoff (d : Device) : Device :=
  d.onPlanner fun p => { p with state := some .steady, context := none }

/-- R61, R67, R71 to R73: a port becomes ACTIVE, the old ACTIVE port, if any, rests by R53, the state becomes STEADY, the
last change record is filled (R82) and HANDOFF_DONE is raised. -/
def Device.changeActive (d : Device) (old : Option PortId) (new : PortId) (reason : ChangeReason) (k : Nat) : Device :=
  let rested := match old with
    | some a => d.setRole a (d.restRole a)
    | none => d
  let changed := (rested.setRole new .active).endHandoff.onPlanner fun p =>
    { p with lastChange := some { old := old, new := new, reason := reason, period := k } }
  changed.raise .handoffDone (EventDetail.ofPort new (some k) (some reason.number))

/-- R69: an abandon; for TIMEOUT the DEST's bar is set to the backoff. -/
def Device.abandon (d : Device) (reason : AbandonReason) (k : Nat) : Device :=
  match d.planner.context with
  | none => d
  | some c =>
    let ended := (d.setRole c.dest (d.restRole c.dest)).endHandoff
    let barred := if reason = .timeout then ended.setBar c.dest d.ctl.handoff.backoff else ended
    barred.raise .handoffAbandoned (EventDetail.ofPort c.dest (some k) (some reason.number))

/-- R70: an abort at a STALLED or DOWN report of the DEST port. -/
def Device.abort (d : Device) (m : PortId) (r : LossReport) : Device :=
  let ended := ((d.setRole m (d.restRole m)).setBar m d.ctl.handoff.backoff).endHandoff
  (ended.raise .handoffAborted (EventDetail.ofPort m (some d.period) (some r.number))).recomputeApplied

/-- R72: a STALLED or DOWN report of the ACTIVE port in STEADY. -/
def Device.loseActive (d : Device) (m : PortId) (r : LossReport) : Device :=
  match d.fallbackChoice with
  | some n => (d.changeActive (some m) n .fallback d.period).recomputeApplied
  | none =>
    match r with
    | .stalled => d.recomputeApplied
    | .down cause =>
      let gone := (d.setRole m .cold).onPlanner fun p => { p with state := some .noSource, context := none }
      (gone.raise .noSource (EventDetail.ofPort m (some d.period) (some cause.number))).recomputeApplied

/-! ### Reports of the Module Ports (R54) -/

/-- R54, R70 to R72: a STALLED or DOWN report, acted on in STREAMING by the role of the port that makes it. A DOWN report of
a port that is COLD already recomputes the applied zoom too (the model's choice, assumption log 32). -/
def Device.reportLoss (d : Device) (m : PortId) (r : LossReport) : Device :=
  if d.mode ≠ .streaming then d
  else
    match d.role m, d.planner.context with
    | .active, some c => (d.changeActive (some m) c.dest .forced d.period).recomputeApplied
    | .active, none => d.loseActive m r
    | .dest, _ => d.abort m r
    | _, _ =>
      match r with
      | .stalled => d
      | .down _ => (d.setRole m .cold).recomputeApplied

/-- R54: a LINKED report gives the port its standby role, in STREAMING, and the applied zoom is recomputed, also where the
port held that role already (the model's choice, assumption log 32). -/
def Device.reportLinked (d : Device) (m : PortId) : Device :=
  if d.mode = .streaming then (d.setRole m (d.standbyRole m)).recomputeApplied else d

/-! ### The probe start (R64, R84) -/

/-- R84: both slots held, the motion shift looked up for the ACTIVE slot's capture centre, the context filled. -/
def Device.startProbe (d : Device) (a t : PortId) (x y : Slot) (zoom : Nat) : Device :=
  let shift := d.lookup (x.centre.getD 0)
  let held := (d.holdSlot x.id).holdSlot y.id
  let context : ProbeContext :=
    { activePort := a, destPort := t, activeSlot := x.id, destSlot := y.id, period := x.period.getD 0, zoom := zoom,
      ex := shift.ex, ey := shift.ey, start := d.now }
  { held with probe := some context }

/-- R64: whether a probe may start, and the pair it would measure. -/
def Device.probePair (d : Device) : Option (PortId × PortId × Slot × Slot) :=
  match d.planner.state, d.planner.context, d.activePort, d.probe with
  | some .probe, some c, some a, none =>
    if d.planner.hold = 0 ∧ d.motionLevel ≤ d.ctl.handoff.motionLimit then
      (d.pairQuery a c.dest).map fun q => (a, c.dest, q.1, q.2)
    else none
  | _, _, _, _ => none

/-- R64: the start check, with the applied zoom that a started probe is handed. A check that fails changes nothing. -/
def Device.probeCheck (d : Device) (zoom : Nat) : Device :=
  match d.probePair with
  | some (a, t, x, y) => d.startProbe a t x y zoom
  | none => d

/-- R64: the check made at a frame-ready arrival of the ACTIVE or DEST port. -/
def Device.frameReady (d : Device) (m : PortId) : Device :=
  if d.role m = .active ∨ d.role m = .dest then d.probeCheck d.planner.applied else d

/-! ### Frame outcomes (R62) -/

/-- R62: the prepare count follows the outcomes of the DEST port in PREPARE; at 2 the state becomes PROBE, and the start
check is made on the same arrival. -/
def Device.takeOutcome (d : Device) (m : PortId) (o : FrameOutcome) : Device :=
  match d.planner.state, d.planner.context with
  | some .prepare, some c =>
    if c.dest ≠ m ∨ d.mode ≠ .streaming then d
    else
      match o with
      | .good true =>
        if c.prepared + 1 < 2 then
          d.onPlanner fun p => { p with context := some { c with prepared := c.prepared + 1 } }
        else
          Device.probeCheck
            (d.onPlanner fun p =>
              { p with state := some .probe, context := some { c with prepared := 2, deferral := 0 } })
            d.planner.applied
      | .good false => d.onPlanner fun p => { p with context := some { c with prepared := 0 } }
      | .missed => d.onPlanner fun p => { p with context := some { c with prepared := 0 } }
      | .faulted => d.onPlanner fun p => { p with context := some { c with prepared := 0 } }
      | .dropped => d
  | _, _ => d

end Sys2Proof.Machine
end

