-- ==== Sys2Proof/Machine/PortOps.lean ====
section
/-! DEFINITION. Sys2Proof/Machine/PortOps.lean: the Module Ports (Chapter 7): bring-up and going down, seeking and linking,
FSYNC and the expectation queue, frame reception, and health. -/

namespace Sys2Proof.Machine

open Sys2Proof

/-- R124: a counter's rise; it stays at 65535 once there. -/
def bump (n : Nat) : Nat := min 65535 (n + 1)

/-- Whether a port has a link: LINKED or STALLED. -/
def ModulePort.hasLink (q : ModulePort) : Bool := decide (q.state = .linked) || decide (q.state = .stalled)

/-- The MRST line of a port, true when asserted: in OFF, RESETTING and DEAD (R107), and while RESET_N is low (R160). -/
def Device.mrstAsserted (d : Device) (m : PortId) : Bool :=
  d.ctl.resetLow ||
    match (d.port m).state with
    | .off => true
    | .resetting => true
    | .dead => true
    | .seeking => false
    | .linked => false
    | .stalled => false

/-! ### Going down and coming up -/

/-- R107: a port goes OFF, RESETTING or DEAD: its lane count becomes 0, its pending FSYNC ends, its expectation queue is
emptied without a missed period, the frame it was filling is abandoned, and its unheld slots are freed (R135). -/
def Device.takeDown (d : Device) (m : PortId) (st : PortState) : Device :=
  Device.freeUnheld
    (d.onPort m fun q => { q with state := st, lanes := none, pendingFsync := none, expectations := [] }) m

/-- R107, R54: a DOWN report, made by a port that had a link. -/
def Device.reportDownIf (d : Device) (m : PortId) (hadLink : Bool) (cause : DownCause) : Device :=
  if hadLink then d.reportLoss m (.down cause) else d

/-- R108, R122: bring-up begins: RESETTING from now, the newest exposure back at the initial exposure, the health counts 0,
and the allowance as given; a port that had a link reports DOWN. -/
def Device.bringUp (d : Device) (m : PortId) (allowance : Allowance) (cause : DownCause) : Device :=
  let exposure := match (d.port m).config with
    | some c => c.exposure
    | none => (d.port m).newestExposure
  let reset := (d.takeDown m .resetting).onPort m fun q =>
    { q with since := d.now, newestExposure := exposure, badPeriods := 0, goodRun := 0, stallAge := 0,
             allowance := allowance }
  reset.reportDownIf m (d.port m).hasLink cause

/-- R109: the port goes OFF from any state; a port that had a link reports DOWN with cause PORT_RESET. -/
def Device.disable (d : Device) (m : PortId) : Device :=
  (d.takeDown m .off).reportDownIf m (d.port m).hasLink .portReset

/-! ### Seeking (R110 to R112) -/

/-- R110, R111: the pulse ends 1,000 µs after entry to RESETTING; the first seek window opens with an FSYNC pulse. -/
def Device.openSeek (d : Device) (m : PortId) : Device :=
  d.onPort m fun q =>
    { q with state := .seeking, window := 0, since := q.since + 1000, lastPulse := some (q.since + 1000) }

/-- R111: a seek window ends; the next opens with an FSYNC pulse, or after the twelfth the port enters DEAD. -/
def Device.endSeekWindow (d : Device) (m : PortId) : Device :=
  if (d.port m).window < 11 then
    d.onPort m fun q =>
      { q with window := q.window + 1, since := q.since + 5000, lastPulse := some (q.since + 5000) }
  else (d.takeDown m .dead).raise .portDead (EventDetail.ofPort m d.currentPeriod (some 0))

/-- R112: the lane count at which a header taken in SEEKING is decoded: that of the window in which its first line began;
none for a header that began before the first window, which is ignored (the model's choice, assumption log 33). -/
def ModulePort.seekDecode (q : ModulePort) (h : FrameHeader) : Option Lanes :=
  if h.straddles then (if q.window = 0 then none else some (seekLanes (q.window - 1))) else some (seekLanes q.window)

/-- 7.3, R113: a header's line check passes only at the lane count the module sends on. -/
def headerValid (h : FrameHeader) (lanes : Option Lanes) : Bool := h.checkOk && decide (lanes = some h.lanes)

/-- R112: FRAME_FAULT raised, and the faulted counter's rise (R124). -/
def Device.frameFault (d : Device) (m : PortId) (k : Option Nat) (r : FaultReason) : Device :=
  (d.raise .frameFault (EventDetail.ofPort m k (some r.number))).onPort m fun q => { q with faulted := bump q.faulted }

/-- R112: the seek ends and the port enters LINKED. -/
def Device.linkUp (d : Device) (m : PortId) (lanes : Lanes) (h : FrameHeader) : Device :=
  let linked := d.onPort m fun q =>
    { q with state := .linked, lanes := some lanes, good := 0, missed := 0, faulted := 0, dropped := 0, skips := 0,
             badPeriods := 0, goodRun := 0, stallAge := 0, frameCounter := h.counter.toNat, fsyncIssued := false,
             newestExposure := if h.exposure.toNat = 0 then q.newestExposure else h.exposure.toNat }
  (linked.raise .portLinked (EventDetail.ofPort m d.currentPeriod (some (linkReason lanes)))).reportLinked m

/-- R112: a frame start taken in SEEKING, dealt with by its header. -/
def Device.seekHeader (d : Device) (m : PortId) (h : FrameHeader) : Device :=
  match (d.port m).seekDecode h with
  | none => d
  | some lanes =>
    if !headerValid h (some lanes) then d
    else if (h.width, h.height) ≠ d.frameSize m then d.frameFault m d.currentPeriod .size
    else d.linkUp m lanes h

/-! ### Health (R120 to R122) -/

/-- R120: a bad period: the count rises, the good run ends, the View Planner takes the outcome, and a LINKED port whose
count reaches the stall limit enters STALLED and reports it. -/
def Device.badPeriod (d : Device) (m : PortId) (k : Nat) (why : BadReason) : Device :=
  let counted := d.onPort m fun q => { q with badPeriods := min 15 (q.badPeriods + 1), goodRun := 0 }
  let heard := counted.takeOutcome m (match why with | .missed => .missed | .faulted => .faulted)
  if (heard.port m).state = .linked ∧ d.ctl.handoff.stallLimit ≤ (heard.port m).badPeriods then
    let stalled := heard.onPort m fun q => { q with state := .stalled, stallAge := 0 }
    (stalled.raise .portStalled (EventDetail.ofPort m (some k) (some why.number))).reportLoss m .stalled
  else heard

/-- R115: a period counted as missed. -/
def Device.countMissed (d : Device) (m : PortId) (k : Nat) : Device :=
  (d.onPort m fun q => { q with missed := bump q.missed }).badPeriod m k .missed

/-- R121: a good frame in the port's health. -/
def Device.goodPeriod (d : Device) (m : PortId) (k : Nat) : Device :=
  let counted := d.onPort m fun q => { q with badPeriods := 0, goodRun := min 2 (q.goodRun + 1) }
  if (counted.port m).goodRun = 2 then
    if (counted.port m).state = .stalled then
      (counted.onPort m fun q => { q with state := .linked, stallAge := 0, allowance := .available }).raise
        .portRecovered (EventDetail.ofPort m (some k) none)
    else counted.onPort m fun q => { q with allowance := .available }
  else counted

/-- R122: the automatic reset: the allowance is SPENT, the port enters RESETTING as in R108 and reports DOWN with cause
AUTO_RESET. -/
def Device.autoReset (d : Device) (m : PortId) : Device := d.bringUp m .spent .autoReset

/-- R122: whether the next rise of the port's stall age makes its automatic reset. -/
def Device.resetNext (d : Device) (m : PortId) : Bool :=
  decide ((d.port m).state = .stalled) && decide ((d.port m).allowance = .available) &&
    decide ((d.port m).stallAge + 1 = d.ctl.handoff.deadLimit)

/-- R122: a period start at a port: a STALLED port's stall age rises until it reaches the dead limit. -/
def Device.advanceStall (d : Device) (m : PortId) : Device :=
  if d.resetNext m then d.autoReset m
  else if (d.port m).state = .stalled then
    d.onPort m fun q => { q with stallAge := min d.ctl.handoff.deadLimit (q.stallAge + 1) }
  else d

/-! ### FSYNC and the expectation queue (R114, R115) -/

/-- R114: the phase φ = trunc((E_ref − E_m) / 2) limited into 0..trunc(P/2). -/
def Device.fsyncPhase (d : Device) (m : PortId) : Nat :=
  let phi := truncDiv ((d.ctl.output.exposureRef : Int) - (d.port m).newestExposure) 2
  (max 0 (min phi ((d.ctl.output.period / 2 : Nat) : Int))).toNat

/-- R106: the stored frame deadline limited into ceil(P/4)..L×P − G. -/
def Device.deadlineOffset (d : Device) (m : PortId) : Nat :=
  let o := d.ctl.output
  let stored := match (d.port m).config with
    | some c => c.deadline
    | none => 0
  min (o.latency * o.period - o.guard) (max (ceilDiv o.period 4).toNat stored)

/-- R114: an FSYNC request for period k; taken in LINKED or STALLED it fixes the pending FSYNC, in any other state it is
ignored. -/
def Device.requestFsync (d : Device) (k : Nat) (m : PortId) : Device :=
  if (d.port m).hasLink then
    let fixed : Expectation :=
      { period := k, issue := d.periodTime k + 100 + d.fsyncPhase m, deadline := d.periodTime k + d.deadlineOffset m }
    d.onPort m fun q => { q with pendingFsync := some fixed }
  else d

/-- R115: the issue time of a pending FSYNC. With fewer than 4 records one joins the tail and the pulse is driven; a record
whose deadline is already past is removed as missed at once, its FSYNC issued all the same. With 4 no pulse is driven and
the period is missed. -/
def Device.issueFsync (d : Device) (m : PortId) (e : Expectation) : Device :=
  let taken := d.onPort m fun q => { q with pendingFsync := none }
  if (d.port m).expectations.length < 4 then
    let pulsed := taken.onPort m fun q => { q with fsyncIssued := true, lastPulse := some e.issue }
    if e.deadline < d.now then pulsed.countMissed m e.period
    else pulsed.onPort m fun q => { q with expectations := q.expectations ++ [e] }
  else taken.countMissed m e.period

/-- R115: the deadline of the head record passes: the record is removed and its period counted as missed. -/
def Device.passDeadline (d : Device) (m : PortId) (e : Expectation) (rest : List Expectation) : Device :=
  (d.onPort m fun q => { q with expectations := rest }).countMissed m e.period

/-! ### Frame reception (R113, R116 to R119) -/

/-- R118: the frame in the port's FILLING slot faults: the slot is freed, FRAME_FAULT is raised with the slot's period, and
the period is bad. -/
def Device.faultFill (d : Device) (m : PortId) (f : Fill) (r : FaultReason) : Device :=
  let k := ((d.slot? f.slot).bind Slot.period).getD 0
  let freed := (d.onSlot f.slot Slot.free).onPort m fun q => { q with filling := none }
  (freed.frameFault m (some k) r).badPeriod m k .faulted

/-- R113: a valid header: a counter that is not the previous one plus 1 modulo 65536 raises the skip counter, and the
header becomes the previous frame counter. -/
def Device.takeHeader (d : Device) (m : PortId) (h : FrameHeader) : Device :=
  d.onPort m fun q =>
    { q with frameCounter := h.counter.toNat,
             skips := if h.counter.toNat = (q.frameCounter + 1) % 65536 then q.skips else bump q.skips }

/-- R116 order 6: the port asks for a slot with the record's period and the capture centre; a frame that is given none is
dropped. -/
def Device.requestSlot (d : Device) (m : PortId) (h : FrameHeader) (e : Expectation) : Device :=
  let exposure := if h.exposure.toNat = 0 then (d.port m).newestExposure else h.exposure.toNat
  match d.allocate m e.period (e.issue + exposure / 2) exposure h.settled with
  | (some id, given) => given.onPort m fun q => { q with filling := some { slot := id, start := d.now, lines := 0 } }
  | (none, refused) =>
    ((refused.raise .frameDropped (EventDetail.ofPort m (some e.period) none)).onPort m fun q =>
      { q with dropped := bump q.dropped }).takeOutcome m .dropped

/-- R116 order 2, R119: whether a frame start that no record awaits is discarded with nothing counted or raised: the port
has issued no FSYNC since it linked, or it is period 0 and the port has issued none since STREAM_START (assumption log
30). -/
def Device.awaitsNothing (d : Device) (m : PortId) : Bool :=
  !(d.port m).fsyncIssued ||
    (decide (d.period = 0) &&
      match (d.port m).lastPulse with
      | some t => decide (t < d.sessionStart)
      | none => true)

/-- R116 orders 2 to 6: a frame start on a LINKED or STALLED port in STREAMING, no frame being filled. -/
def Device.matchFrame (d : Device) (m : PortId) (h : FrameHeader) : Device :=
  let valid := headerValid h (d.port m).lanes
  match (d.port m).expectations with
  | [] =>
    if d.awaitsNothing m then
      if valid then d.onPort m fun q => { q with frameCounter := h.counter.toNat } else d
    else
      (if valid then d.takeHeader m h else d).frameFault m d.currentPeriod .unsolicited
  | e :: rest =>
    let consumed := d.onPort m fun q => { q with expectations := rest }
    if !valid then (consumed.frameFault m (some e.period) .crc).badPeriod m e.period .faulted
    else
      let checked := consumed.takeHeader m h
      if (h.width, h.height) ≠ d.frameSize m then
        (checked.frameFault m (some e.period) .size).badPeriod m e.period .faulted
      else checked.requestSlot m h e

/-- R112, R116, R119: a frame start, by the port's state and the mode. -/
def Device.takeFrameStart (d : Device) (m : PortId) (h : FrameHeader) : Device :=
  match (d.port m).state with
  | .seeking => d.seekHeader m h
  | .off => d
  | .resetting => d
  | .dead => d
  | .linked | .stalled =>
    if d.mode ≠ .streaming then d
    else
      match (d.port m).filling with
      | some f => (d.faultFill m f .short).matchFrame m h
      | none => d.matchFrame m h

/-- R117: the frame end of a good frame, in the rule's order; a port that holds role COLD then has the slot freed
(R135). -/
def Device.completeFrame (d : Device) (m : PortId) (f : Fill) (s : Slot) : Device :=
  let k := s.period.getD 0
  let stored := ((d.onSlot f.slot fun x => { x with state := .ready, useCount := 0 }).onPort m fun q =>
    { q with filling := none }).supersede m
  let counted := (stored.frameReady m).onPort m fun q => { q with newestExposure := s.exposure, good := bump q.good }
  let heard := (counted.goodPeriod m k).takeOutcome m (.good s.settled)
  if heard.role m = .cold then
    heard.onSlot f.slot fun x => if x.state = .ready then x.free else x
  else heard

/-- R117, R118: the frame-end marker of the frame being filled: good after exactly Hm lines, SHORT after fewer. -/
def Device.takeFrameEnd (d : Device) (m : PortId) : Device :=
  match (d.port m).filling with
  | none => d
  | some f =>
    match d.slot? f.slot with
    | none => d
    | some s => if f.lines < (d.frameSize m).2 then d.faultFill m f .short else d.completeFrame m f s

/-- R118: the time at which the fill of a frame times out, frame start + 2 × readout time. -/
def Device.fillLimit (d : Device) (m : PortId) (f : Fill) : Nat :=
  f.start + 2 * (match (d.port m).config with | some c => c.readout | none => 0)

/-- R123: STREAM_STOP at a port: a pending FSYNC and the expectation queue end, a frame being filled is abandoned, a STALLED
port returns to LINKED, and every health field is cleared. -/
def ModulePort.stop (q : ModulePort) : ModulePort :=
  { q with pendingFsync := none, expectations := [], filling := none,
           state := if q.state = .stalled then .linked else q.state,
           badPeriods := 0, goodRun := 0, stallAge := 0, allowance := .available }

end Sys2Proof.Machine
end

