-- ==== Sys2Proof/Machine/PlanOps.lean ====
section
/-! DEFINITION. Sys2Proof/Machine/PlanOps.lean: the period-start planning of the View Planner in its six stages (R56,
Table 4-4), and the period start at the Module Ports (R122). -/

namespace Sys2Proof.Machine

open Sys2Proof

/-! ### Stage 1: the ramp step (R45 to R47) -/

/-- R46: the nominal zoom of step j, Z_s + trunc((Z_t − Z_s) × j / N). -/
def Ramp.zoomAt (r : Ramp) (j : Nat) : Nat :=
  ((r.start : Int) + truncDiv (((r.target : Int) - r.start) * j) r.length).toNat

/-- R45 to R48: the View Planner after the ramp step, the running request id of this period's plan, and whether the ramp
completed in it. -/
def Planner.rampStep (p : Planner) : Planner × Option Nat × Bool :=
  match p.ramp with
  | some r =>
    let j := r.step + 1
    let moved := { p with nominal := r.zoomAt j }
    if j < r.length then ({ moved with ramp := some { r with step := j } }, some r.id, false)
    else ({ moved with ramp := none }, some r.id, true)
  | none =>
    match p.queue with
    | [] => (p, none, false)
    | e :: rest =>
      if e.length = 0 then ({ p with queue := rest, nominal := e.target }, some e.id, true)
      else
        let begun : Ramp := { id := e.id, start := p.nominal, target := e.target, length := e.length, step := 0 }
        ({ p with queue := rest, ramp := some begun }, some e.id, false)

/-! ### Stage 2: the counts (R57, R100, R103) -/

/-- R57, R100, R103: every bar, the hold counter and the capture guard counted down; a hold that ends raises
HOLD_EXPIRED. -/
def Device.countDown (d : Device) (k : Nat) : Device :=
  let counted := d.onPlanner fun p =>
    { p with bars := p.bars.map (· - 1), hold := p.hold - 1, guard := p.guard - 1 }
  if d.planner.hold = 1 then counted.raise .holdExpired (EventDetail.ofPeriod (some k) none) else counted

/-! ### Stage 3: the hand-off state -/

/-- R59: the destination the STEADY search finds from ACTIVE port a, with its direction. -/
def Device.destination (d : Device) (a : PortId) : Option (PortId × Direction) :=
  let z := d.planner.nominal
  let up := portsWhere fun n =>
    d.isCandidate n && decide ((d.calOf a).base < (d.calOf n).base) && decide (d.upOf n ≤ z)
  let down := portsWhere fun n =>
    d.isCandidate n && decide ((d.calOf n).base < (d.calOf a).base) && decide ((d.calOf n).lower ≤ z)
  match d.longest up with
  | some n => some (n, .up)
  | none => if z < d.downOf a then (d.longest down).map fun n => (n, .down) else none

/-- R60: PREPARE begins with DEST n; HANDOFF_STARTED is raised. -/
def Device.beginHandoff (d : Device) (n : PortId) (dir : Direction) (k : Nat) (run : Option Nat) : Device :=
  let created : HandoffContext :=
    { dest := n, direction := dir, prepared := 0, elapsed := 0, deferral := 0, residual := none, step := 0 }
  let begun := (d.setRole n .dest).onPlanner fun p => { p with state := some .prepare, context := some created }
  begun.raise .handoffStarted { EventDetail.ofPort n (some k) (some dir.number) with requestId := run }

/-- R59 to R61: the STEADY evaluation. -/
def Device.evaluateSteady (d : Device) (k : Nat) (run : Option Nat) : Device :=
  match d.activePort with
  | none => d
  | some a =>
    if (d.port a).state = .stalled then
      match d.fallbackChoice with
      | some n => d.changeActive (some a) n .fallback k
      | none => d
    else if (d.port a).state = .linked then
      match d.destination a with
      | some (n, dir) => if d.planner.hold = 0 ∧ d.planner.guard = 0 then d.beginHandoff n dir k run else d
      | none => d
    else d

/-- R63 step 1: whether the nominal has moved back across the threshold of the hand-off. -/
def Device.reversed (d : Device) (c : HandoffContext) : Bool :=
  match c.direction, d.activePort with
  | .up, _ => decide (d.planner.nominal < d.upOf c.dest)
  | .down, some a => decide (d.downOf a ≤ d.planner.nominal)
  | .down, none => false

/-- R63: the PREPARE evaluation. -/
def Device.evaluatePrepare (d : Device) (c : HandoffContext) (k : Nat) : Device :=
  let raised := d.onPlanner fun p => { p with context := some { c with elapsed := c.elapsed + 1 } }
  if d.reversed c then raised.abandon .reversed k
  else if d.ctl.handoff.prepareLimit ≤ c.elapsed + 1 then raised.abandon .timeout k
  else raised

/-- R67: the BLEND evaluation: one more blend step, or after the last the commit and the STEADY evaluation. -/
def Device.evaluateBlend (d : Device) (c : HandoffContext) (k : Nat) (run : Option Nat) : Device :=
  if c.step < d.ctl.handoff.blendLength then
    d.onPlanner fun p => { p with context := some { c with step := c.step + 1 } }
  else (d.changeActive d.activePort c.dest .blend k).evaluateSteady k run

/-- R65 step 4: the residual record of a skipped probe. -/
def Residual.skip : Residual := { rx := 0, ry := 0, score := 0, accepted := .skipped }

/-- R65 steps 3 and 4, after the start check: the deferral, and at the deferral limit the skip to BLEND with its
evaluation. Neither is made with a probe in flight, unless its completion has arrived and meets this planning (R78, R92:
the model's reading, assumption log 31). -/
def Device.deferProbe (d : Device) (c : HandoffContext) (k : Nat) (run : Option Nat) (arrived : Bool) : Device :=
  if (d.probe = none ∨ arrived = true) ∧ d.planner.hold = 0 then
    if c.deferral + 1 < d.ctl.handoff.deferralLimit then
      d.onPlanner fun p => { p with context := some { c with deferral := c.deferral + 1 } }
    else
      let skipped := { c with deferral := c.deferral + 1, residual := some Residual.skip, step := 0 }
      Device.evaluateBlend (d.onPlanner fun p => { p with state := some .blend, context := some skipped }) skipped k run
  else d

/-- R64: whether the completion of the probe in flight has arrived, where `met` says that a completion waits to be
taken. -/
def Device.completionArrived (d : Device) (met : Bool) : Bool := d.probe.isSome && met

/-- R65: the PROBE evaluation. A probe started here is handed the applied zoom that this planning computes. -/
def Device.evaluateProbe (d : Device) (c : HandoffContext) (k : Nat) (run : Option Nat) (met : Bool) : Device :=
  if d.reversed c then d.abandon .reversed k
  else (d.probeCheck (d.appliedIn .probe)).deferProbe c k run (d.completionArrived met)

/-- R73: the NO_SOURCE evaluation. -/
def Device.evaluateNoSource (d : Device) (k : Nat) : Device :=
  match d.preferredCandidate with
  | some n => d.changeActive none n .fallback k
  | none => d

/-- R56: stage 3, by the state the sequencer is in when the stage begins; `met` says whether a probe completion waits to
be taken after the planning (R78, R92). -/
def Device.evaluate (d : Device) (k : Nat) (run : Option Nat) (met : Bool) : Device :=
  match d.planner.state, d.planner.context with
  | some .steady, _ => d.evaluateSteady k run
  | some .prepare, some c => d.evaluatePrepare c k
  | some .probe, some c => d.evaluateProbe c k run met
  | some .blend, some c => d.evaluateBlend c k run
  | some .noSource, _ => d.evaluateNoSource k
  | _, _ => d

/-! ### Stages 4 and 5: the applied zoom and the view plan -/

/-- R68: α_j = floor(256 × j / (N_b + 1)). -/
def blendWeight (blendLength j : Nat) : Nat := 256 * j / (blendLength + 1)

/-- R91: one axis of the residual step, even toward zero(trunc(r × (N_b + 1 − j) / (N_b + 1))). -/
def residualStep (blendLength j : Nat) (r : Int) : Int :=
  evenTowardZeroDiv (truncDiv (r * ((blendLength : Int) + 1 - j)) (blendLength + 1)) 1

/-- R66, R91: the offset of a residual record: (0, 0) unless it was accepted. -/
def Residual.offset (r : Residual) : Int × Int := if r.accepted = .yes then (r.rx, r.ry) else (0, 0)

/-- R68: the blend step a plan written in BLEND carries. -/
def Device.blendStep (d : Device) (c : HandoffContext) : BlendStep :=
  let n := d.ctl.handoff.blendLength
  let offset := match c.residual with
    | some r => r.offset
    | none => (0, 0)
  { dest := c.dest, step := c.step, alpha := blendWeight n c.step, rx := residualStep n c.step offset.1,
    ry := residualStep n c.step offset.2,
    lowConfidence := decide (c.residual.map Residual.accepted = some .no),
    probeSkipped := decide (c.residual.map Residual.accepted = some .skipped) }

/-- R77: the ports of plan k's sync set: the ACTIVE port, the DEST port, and each WARM port whose divisor divides k, in
ascending port number. -/
def Device.syncSet (d : Device) (k : Nat) : List PortId :=
  portsWhere fun m =>
    match d.role m with
    | .active => true
    | .dest => true
    | .warm => (match (d.port m).config with | some c => decide (k % c.divisor = 0) | none => false)
    | .cold => false
    | .none => false

/-- R75: view plan k, from the state after stages 1 to 4. -/
def Device.viewPlan (d : Device) (k : Nat) (run : Option Nat) : ViewPlan :=
  let p := d.planner
  { period := k, nominal := p.nominal, applied := p.applied, zoomHeld := decide (p.applied ≠ p.nominal),
    requestId := run, state := p.state.getD .steady, active := d.activePort,
    blend := (match p.state, p.context with | some .blend, some c => some (d.blendStep c) | _, _ => none),
    syncSet := d.syncSet k, captureMark := p.markPending }

/-- R75, R76, R103: the plan joins the tail of the view plan queue, and writing it clears the pending mark. -/
def Device.writePlan (d : Device) (k : Nat) (run : Option Nat) : Device :=
  d.onPlanner fun p => { p with plans := p.plans ++ [d.viewPlan k run], markPending := false }

/-! ### The planning and the period start -/

/-- R47: ZOOM_DONE, with the nominal and applied zoom of the planning that completed the ramp. -/
def Device.raiseZoomDone (d : Device) (k : Nat) (run : Option Nat) : Device :=
  d.raise .zoomDone
    { EventDetail.empty with
        requestId := run, period := some k, zooms := some (d.planner.nominal, d.planner.applied) }

/-- R56: one planning for period k, six stages with nothing taken between them. -/
def Device.plan (d : Device) (k : Nat) (met : Bool) : Device :=
  let ramp := d.planner.rampStep
  let run := ramp.2.1
  let stepped : Device := { d with planner := ramp.1 }
  let computed := ((stepped.countDown k).evaluate k run met).recomputeApplied
  let reported := if ramp.2.2 then computed.raiseZoomDone k run else computed
  let written := reported.writePlan k run
  (written.syncSet k).foldl (Device.requestFsync · k) written

/-- R122, R165, R166: period start k is the current period from here on. -/
def Device.enterPeriod (d : Device) (k planned : Nat) : Device :=
  d.onCtl fun c => { c with session := c.session.map fun s => { s with current := k, nextPlan := planned } }

/-- The index of the next planning. -/
def Device.nextPeriod (d : Device) : Nat := ((d.ctl.session).map Session.nextPlan).getD 0

/-- R56, R122, R165: the period start: the View Planner runs the planning, and each STALLED port's stall age advances, the
ports in ascending number (assumption log 7). -/
def Device.startPeriod (d : Device) (met : Bool) : Device :=
  let k := d.nextPeriod
  PortId.all.foldl Device.advanceStall ((d.enterPeriod k (k + 1)).plan k met)

/-- R165: a period start is due: STREAMING, the time base has reached T_k, and the plans whose compose deadlines precede
T_k have been taken (R76). -/
def Device.periodDue (d : Device) : Bool :=
  decide (d.mode = .streaming) && d.ctl.session.isSome && decide (d.periodTime d.nextPeriod ≤ d.now) &&
    decide (d.planner.plans.length < d.ctl.output.latency)

/-- The device after stages 1 and 2 of the planning that is next, on which the decisions of its stage 3 are made. -/
def Device.beforeEvaluation (d : Device) : Device :=
  Device.countDown { d with planner := d.planner.rampStep.1 } d.nextPeriod

end Sys2Proof.Machine
end

