-- ==== Sys2Proof/Machine/ProbeOps.lean ====
section
/-! DEFINITION. Sys2Proof/Machine/ProbeOps.lean: the Registration Probe (Chapter 5): the patches, the search, the score,
and the completion. -/

namespace Sys2Proof.Machine

open Sys2Proof

/-- R85: the 64×64 luma patch of a window, at output columns Wo/2 − 32..Wo/2 + 31 and the corresponding rows. -/
def probePatch (mem : Memory) (slot : Nat) (frame : Nat × Nat) (win : Window) (out : Nat × Nat) : List Nat :=
  (List.range 64).flatMap fun j =>
    (List.range 64).map fun i =>
      renderFrame mem slot frame win out .y (out.1 / 2 - 32 + i) (out.2 / 2 - 32 + j)

/-- R86: the seventeen offsets of one axis, −16 to 16 in steps of 2. -/
def probeOffsets : List Int := (List.range 17).map fun i => 2 * (i : Int) - 16

/-- R86: the 289 candidate offsets. -/
def probeCandidates : List (Int × Int) := probeOffsets.flatMap fun ry => probeOffsets.map fun rx => (rx, ry)

/-- R86: the sum of absolute differences of two patches. -/
def patchSad : List Nat → List Nat → Nat
  | x :: xs, y :: ys => (x - y) + (y - x) + patchSad xs ys
  | _, _ => 0

/-- R86: the cost, floor(SAD / 4096). -/
def patchCost (source candidate : List Nat) : Nat := patchSad source candidate / 4096

/-- R87: whether one candidate is chosen before another: the least cost, then the smallest |rx| + |ry|, then the smallest
ry, then the smallest rx. A candidate stands with its cost. -/
def chosenBefore (x y : Nat × Int × Int) : Bool :=
  let mx := x.2.1.natAbs + x.2.2.natAbs
  let my := y.2.1.natAbs + y.2.2.natAbs
  decide (x.1 < y.1) ||
    (decide (x.1 = y.1) &&
      (decide (mx < my) ||
        (decide (mx = my) &&
          (decide (x.2.2 < y.2.2) || (decide (x.2.2 = y.2.2) && decide (x.2.1 < y.2.1))))))

/-- R87: the chosen offset with its cost, for a cost of every offset. -/
def chosenOffset (cost : Int × Int → Nat) : Nat × Int × Int :=
  (bestBy chosenBefore (probeCandidates.map fun c => (cost c, c.1, c.2))).getD (0, 0, 0)

/-- R88: the greatest luma sample of a patch minus its least. -/
def patchContrast (patch : List Nat) : Nat := patch.foldl max 0 - patch.foldl min 255

/-- R88: the score of a best cost and a contrast. -/
def probeScore (bestCost contrast : Nat) : Nat := if contrast < 16 then 0 else 255 - min 255 (4 * bestCost)

/-- R85: the source patch, from the ACTIVE window with residual (0, 0). -/
def Device.sourcePatch (d : Device) (mem : Memory) (c : ProbeContext) : List Nat :=
  probePatch mem c.activeSlot (d.frameSize c.activePort) (d.window c.activePort c.zoom c.ex c.ey 0 0).window d.outputSize

/-- R85: a candidate's patch, from the DEST window with the candidate offset as its residual. -/
def Device.candidatePatch (d : Device) (mem : Memory) (c : ProbeContext) (offset : Int × Int) : List Nat :=
  probePatch mem c.destSlot (d.frameSize c.destPort)
    (d.window c.destPort c.zoom c.ex c.ey offset.1 offset.2).window d.outputSize

/-- R86: the cost of a candidate offset. -/
def Device.probeCost (d : Device) (mem : Memory) (c : ProbeContext) (offset : Int × Int) : Nat :=
  patchCost (d.sourcePatch mem c) (d.candidatePatch mem c offset)

/-- R85 to R88: the measurement. -/
def Device.measure (d : Device) (mem : Memory) (c : ProbeContext) : ProbeMeasure :=
  let best := chosenOffset (d.probeCost mem c)
  let contrast := patchContrast (d.sourcePatch mem c)
  let score := probeScore best.1 contrast
  { rx := best.2.1, ry := best.2.2, bestCost := best.1, contrast := contrast, score := score,
    accepted := decide (d.ctl.handoff.probeThreshold ≤ score) }

/-- R66: whether the View Planner takes a completion: the state is PROBE and the DEST is the port the probe started
with. -/
def Device.takesProbe (d : Device) (c : ProbeContext) : Bool :=
  match d.planner.state, d.planner.context with
  | some .probe, some h => decide (h.dest = c.destPort) && decide (d.mode = .streaming)
  | _, _ => false

/-- R66: the residual record a completion gives: the offset measured when accepted, (0, 0) when not. -/
def ProbeMeasure.residual (q : ProbeMeasure) : Residual :=
  if q.accepted then { rx := q.rx, ry := q.ry, score := q.score, accepted := .yes }
  else { rx := 0, ry := 0, score := q.score, accepted := .no }

/-- R66: the completion taken: the residual record is filled and the state becomes BLEND with j = 0. The applied zoom is
left as last computed until the next planning, even below the DEST's lower bound (R58, R11: the model's choice, assumption
log 41). -/
def Device.takeProbe (d : Device) (q : ProbeMeasure) : Device :=
  match d.planner.context with
  | none => d
  | some h =>
    let filled := { h with residual := some q.residual, step := 0 }
    d.onPlanner fun p => { p with state := some .blend, context := some filled }

/-- R89: the completion: both slots released, the arrival taken or discarded by the View Planner, the last result record
written, and the probe IDLE. -/
def Device.completeProbe (d : Device) (c : ProbeContext) (q : ProbeMeasure) : Device :=
  let released := (d.releaseSlot c.activeSlot).releaseSlot c.destSlot
  let taken := released.takesProbe c
  let heard := if taken then released.takeProbe q else released
  let result : ProbeResult :=
    { activePort := c.activePort, destPort := c.destPort, period := c.period, rx := q.rx, ry := q.ry,
      bestCost := q.bestCost, contrast := q.contrast, score := q.score, accepted := q.accepted, taken := taken,
      time := d.now }
  { heard with probe := none, probeResult := some result }

/-- Whether a stored frame lies in frame memory. -/
def Device.frameInMemory (d : Device) (slot : Nat) (m : PortId) : Bool :=
  decide (slotBase slot + pictureBytes (d.frameSize m).1 (d.frameSize m).2 ≤ frameMemoryBytes)

/-- Whether the two frames a probe reads lie in frame memory. -/
def Device.probeInMemory (d : Device) (c : ProbeContext) : Bool :=
  d.frameInMemory c.activeSlot c.activePort && d.frameInMemory c.destSlot c.destPort

end Sys2Proof.Machine
end

