-- ==== Sys2Proof/Machine/OutputOps.lean ====
section
/-! DEFINITION. Sys2Proof/Machine/OutputOps.lean: the Compositor and the Output Link (Chapter 9): slot selection, the start
and the completion of a composition, emissions, trailers and the fence. -/

namespace Sys2Proof.Machine

open Sys2Proof

/-! ### Buffers (R141) -/

/-- One output buffer changed by a function. -/
def Device.onBuffer (d : Device) (id : Nat) (f : OutputBuffer → OutputBuffer) : Device :=
  { d with buffers := d.buffers.map fun b => if b.id = id then f b else b }

/-- The first buffer in a state; for FREE, the lowest-numbered. -/
def Device.bufferIn (d : Device) (st : BufferState) : Option OutputBuffer := d.buffers.find? fun b => b.state = st

/-- The buffer with a given number. -/
def Device.buffer? (d : Device) (id : Nat) : Option OutputBuffer := d.buffers.find? fun b => b.id = id

/-! ### Slot selection (R144) -/

/-- Table 9-4: the first line that applies; none is the skip with cause NO_FRAME. -/
def Device.select (d : Device) (plan : ViewPlan) : Option Selection :=
  match plan.active with
  | none => none
  | some a =>
    match plan.blend with
    | none => (d.pair a plan.period).map fun x => { active := some x, dest := none, alpha := 0, forced := false }
    | some b =>
      match d.pair a plan.period, d.pair b.dest plan.period with
      | some x, some y => some { active := some x, dest := some y, alpha := b.alpha, forced := false }
      | some x, none => some { active := some x, dest := none, alpha := 0, forced := true }
      | none, some y => some { active := none, dest := some y, alpha := 256, forced := true }
      | none, none => none

/-! ### The start of a composition (R145, R152) -/

/-- R145 step 1: the capture centre of the ACTIVE slot, or of the DEST slot when that alone is used. -/
def Selection.centre (s : Selection) : Nat :=
  match s.active, s.dest with
  | some x, _ => x.1.centre.getD 0
  | none, some y => y.1.centre.getD 0
  | none, none => 0

/-- R145 step 3: the ACTIVE window, with residual (0, 0), when it is rendered. -/
def Device.activeAnswer (d : Device) (plan : ViewPlan) (s : Selection) (shift : MotionShift) : Option WindowAnswer :=
  match plan.active, s.active with
  | some a, some _ => some (d.window a plan.applied shift.ex shift.ey 0 0)
  | _, _ => none

/-- R145 step 3: the DEST window, with the plan's residual step, when it is rendered. -/
def Device.destAnswer (d : Device) (plan : ViewPlan) (s : Selection) (shift : MotionShift) : Option WindowAnswer :=
  match plan.blend, s.dest with
  | some b, some _ => some (d.window b.dest plan.applied shift.ex shift.ey b.rx b.ry)
  | _, _ => none

/-- Whether an optional pairing is LATE. -/
def isLate : Option (Slot × Bool) → Bool
  | some x => x.2
  | none => false

/-- R152: the trailer assembled from the plan and the composition's inputs. -/
def Device.assembleTrailer (d : Device) (plan : ViewPlan) (s : Selection) : Trailer :=
  let shift := d.lookup s.centre
  let wa := d.activeAnswer plan s shift
  let wd := d.destAnswer plan s shift
  { period := plan.period
    activePeriod := s.active.bind fun x => x.1.period
    destPeriod := s.dest.bind fun y => y.1.period
    nominal := plan.nominal
    applied := plan.applied
    active := plan.active
    dest := plan.blend.map BlendStep.dest
    alpha := s.alpha
    requestId := plan.requestId
    state := plan.state
    rx := (plan.blend.map BlendStep.rx).getD 0
    ry := (plan.blend.map BlendStep.ry).getD 0
    flags :=
      { zoomHeld := plan.zoomHeld
        lateA := isLate s.active
        lateD := isLate s.dest
        alphaForced := s.forced
        edge := (wa.map WindowAnswer.edge).getD false || (wd.map WindowAnswer.edge).getD false
        floorFlag := (wa.map WindowAnswer.floorFlag).getD false || (wd.map WindowAnswer.floorFlag).getD false
        noMotion := shift.noMotion
        stale := shift.stale
        lowConfidence := (plan.blend.map BlendStep.lowConfidence).getD false
        probeSkipped := (plan.blend.map BlendStep.probeSkipped).getD false
        repeated := false
        grey := false
        captureMark := plan.captureMark }
    ex := shift.ex
    ey := shift.ey
    centre := s.centre
    activeWindow := wa.map WindowAnswer.window
    destWindow := wd.map WindowAnswer.window }

/-- A hold on a chosen slot, if there is one (R130). -/
def Device.holdChosen (d : Device) : Option (Slot × Bool) → Device
  | some x => d.holdSlot x.1.id
  | none => d

/-- R143: the Output Link's pending record set to the plan's period with a copy of it and an outcome. -/
def Device.setPending (d : Device) (plan : ViewPlan) (outcome : PendingOutcome) : Device :=
  d.onLink fun l => { l with pending := some { period := plan.period, plan := plan, outcome := outcome } }

/-- R145: a composition starts in a buffer: the buffer becomes COMPOSING with the assembled trailer, each chosen slot is
held, and the context and the pending record are filled. -/
def Device.startComposition (d : Device) (plan : ViewPlan) (s : Selection) (b : OutputBuffer) : Device :=
  let trailer := d.assembleTrailer plan s
  let held := (d.holdChosen s.active).holdChosen s.dest
  let context : Composition :=
    { period := plan.period, buffer := b.id, activeSlot := s.active.map fun x => x.1.id,
      destSlot := s.dest.map fun y => y.1.id, alpha := s.alpha }
  let taken := held.onBuffer b.id fun x =>
    { x with state := .composing, period := some plan.period, trailer := some trailer }
  Device.setPending { taken with composing := some context } plan (.composing b.id)

/-- R143 to R145: what becomes of plan k at its compose deadline: skipped BUSY while a composition is in flight, skipped
NO_FRAME when no usable frame exists, otherwise started. -/
def Device.composeFrame (d : Device) (plan : ViewPlan) : Device :=
  match d.composing with
  | some _ => d.setPending plan (.skipped .busy)
  | none =>
    match d.select plan with
    | none => d.setPending plan (.skipped .noFrame)
    | some s =>
      match d.bufferIn .free with
      | none => d.setPending plan (.skipped .busy)
      | some b => d.startComposition plan s b

/-- R132: the compose point becomes k + 1 after the holds, and the supersession check is made for every port. -/
def Device.advanceComposePoint (d : Device) (k : Nat) : Device :=
  Device.supersedeAll { d with composePoint := k + 1 }

/-- R143: the compose deadline of the head plan. -/
def Device.takePlan (d : Device) (plan : ViewPlan) (rest : List ViewPlan) : Device :=
  ((d.onPlanner fun p => { p with plans := rest }).composeFrame plan).advanceComposePoint plan.period

/-- R143, R165: the head plan, when its compose deadline is due: STREAMING, the time base has reached C_k, and the emission
start of the frame before it has been taken. -/
def Device.composeDue (d : Device) : Option (ViewPlan × List ViewPlan) :=
  match d.planner.plans with
  | [] => none
  | plan :: rest =>
    if d.mode = .streaming ∧ d.link.pending = none ∧ d.composeTime plan.period ≤ d.now then some (plan, rest) else none

/-! ### The completion of a composition (R146, R147) -/

/-- R146: one sample of the composed picture: the one rendering as it stands, or both blended at α. -/
def Device.composedSample (d : Device) (mem : Memory) (c : Composition) (t : Trailer) (p : Plane) (i j : Nat) : Nat :=
  let frame := fun (m : Option PortId) => (m.map d.frameSize).getD (0, 0)
  match c.activeSlot, t.activeWindow, c.destSlot, t.destWindow with
  | some x, some wx, some y, some wy =>
    blendSample (renderFrame mem x (frame t.active) wx d.outputSize p i j)
      (renderFrame mem y (frame t.dest) wy d.outputSize p i j) c.alpha
  | some x, some wx, _, _ => renderFrame mem x (frame t.active) wx d.outputSize p i j
  | _, _, some y, some wy => renderFrame mem y (frame t.dest) wy d.outputSize p i j
  | _, _, _, _ => 0

/-- 9.1, R146: the bytes of the composed picture in the order they are stored: luma, U, V, each row by row. -/
def Device.composedBytes (d : Device) (mem : Memory) (c : Composition) (t : Trailer) : List Byte :=
  [Plane.y, Plane.u, Plane.v].flatMap fun p =>
    (List.range (p.scale d.outputSize.2)).flatMap fun j =>
      (List.range (p.scale d.outputSize.1)).map fun i => BitVec.ofNat 8 (d.composedSample mem c t p i j)

/-- The picture written into the composition's buffer. -/
def Device.composedMemory (d : Device) (mem : Memory) (c : Composition) : Memory :=
  match (d.buffer? c.buffer).bind OutputBuffer.trailer with
  | some t => mem.writeBytes (bufferBase c.buffer) (d.composedBytes mem c t)
  | none => mem

/-- Whether an optional slot's frame lies in frame memory. -/
def Device.usedFrameInMemory (d : Device) : Option Nat → Bool
  | none => true
  | some id =>
    match (d.slot? id).bind Slot.owner with
    | some m => d.frameInMemory id m
    | none => true

/-- Whether all that a composition reads and writes lies in frame memory. -/
def Device.compositionInMemory (d : Device) (c : Composition) : Bool :=
  d.usedFrameInMemory c.activeSlot && d.usedFrameInMemory c.destSlot &&
    decide (bufferBase c.buffer + pictureBytes d.outputSize.1 d.outputSize.2 ≤ frameMemoryBytes)

/-- Whether the pending record still names a buffer (R147). -/
def Device.pendingNames (d : Device) (buffer : Nat) : Bool :=
  match d.link.pending with
  | some r => decide (r.outcome = .composing buffer)
  | none => false

/-- R147: the completion: every slot released, the buffer COMPLETE or discarded, the Compositor IDLE. -/
def Device.finishComposition (d : Device) (c : Composition) : Device :=
  let released := (d.releaseOption c.activeSlot).releaseOption c.destSlot
  let decided :=
    if released.pendingNames c.buffer then released.onBuffer c.buffer fun b => { b with state := .complete }
    else released.onBuffer c.buffer fun b => OutputBuffer.freed b.id
  { decided with composing := none }

/-! ### Emission (R149 to R153) -/

/-- R153: the trailer of a REPEAT: that of the LAST buffer with the period k, REPEAT, and the capture mark of plan k. -/
def repeatTrailer (t : Trailer) (plan : ViewPlan) : Trailer :=
  { t with period := plan.period, flags := { t.flags with repeated := true, captureMark := plan.captureMark } }

/-- R153: the trailer of a GREY frame. -/
def greyTrailer (plan : ViewPlan) : Trailer :=
  { period := plan.period, activePeriod := none, destPeriod := none, nominal := plan.nominal, applied := plan.applied,
    active := none, dest := none, alpha := 0, requestId := plan.requestId, state := plan.state, rx := 0, ry := 0,
    flags :=
      { zoomHeld := plan.zoomHeld, lateA := false, lateD := false, alphaForced := false, edge := false,
        floorFlag := false, noMotion := false, stale := false, lowConfidence := false, probeSkipped := false,
        repeated := false, grey := true, captureMark := plan.captureMark },
    ex := 0, ey := 0, centre := 0, activeWindow := none, destWindow := none }

/-- Table 9-5: the cause of a REPEAT or GREY emission. -/
def PendingOutcome.cause : PendingOutcome → RepeatCause
  | .composing _ => .late
  | .skipped c => c

/-- Table 9-5: the COMPLETE buffer that makes the emission FRESH, if there is one. -/
def Device.freshBuffer (d : Device) (r : PendingRecord) : Option OutputBuffer :=
  match r.outcome with
  | .composing b => (d.buffer? b).filter fun x => decide (x.state = .complete)
  | .skipped _ => none

/-- R149: an emission started: the pending record emptied, the sending record filled, the trailer kept as the last
trailer. -/
def Device.send (d : Device) (k : Nat) (kind : EmissionKind) (buffer : Option Nat) (t : Option Trailer) : Device :=
  let sending := match buffer with
    | some b => d.onBuffer b fun x => { x with state := .sending }
    | none => d
  sending.onLink fun l =>
    { l with pending := none, sending := some { period := k, kind := kind, buffer := buffer }, lastTrailer := t }

/-- R151: an emission of kind REPEAT or GREY: OUTPUT_REPEAT, the non-fresh run's rise, and OUTPUT_FROZEN once a run when it
reaches the freeze limit. -/
def Device.countNonFresh (d : Device) (k : Nat) (cause : RepeatCause) : Device :=
  let x := EventDetail.ofPeriod (some k) (some cause.number)
  let run := min 255 (d.link.nonFresh + 1)
  let counted := (d.raise .outputRepeat x).onLink fun l => { l with nonFresh := run }
  if d.ctl.handoff.freezeLimit ≤ run ∧ d.link.frozenReported = false then
    (counted.raise .outputFrozen x).onLink fun l => { l with frozenReported := true }
  else counted

/-- R149, R151: the emission start that a pending record decides, by the first line of Table 9-5 that applies. -/
def Device.emit (d : Device) (r : PendingRecord) : Device :=
  match d.freshBuffer r with
  | some b =>
    (d.send r.period .fresh (some b.id) b.trailer).onLink fun l => { l with nonFresh := 0, frozenReported := false }
  | none =>
    match d.bufferIn .last with
    | some b =>
      (d.send r.period .repeated (some b.id) (b.trailer.map fun t => repeatTrailer t r.plan)).countNonFresh r.period
        r.outcome.cause
    | none => (d.send r.period .grey none (some (greyTrailer r.plan))).countNonFresh r.period r.outcome.cause

/-- R149, R165: the pending record whose emission start is due: in STREAMING or STOPPING, the time base has reached
T_{k+L}, and the emission before it has ended. -/
def Device.emissionDue (d : Device) : Option PendingRecord :=
  match d.link.pending with
  | none => none
  | some r =>
    if (d.mode = .streaming ∨ d.mode = .stopping) ∧ d.link.sending = none ∧ d.emissionTime r.period ≤ d.now then some r
    else none

/-- R157: an outstanding fence completes with FENCE_DONE, status DONE (0) or CUT (1). -/
def Device.completeFence (d : Device) (k status : Nat) : Device :=
  (d.raise .fenceDone (EventDetail.ofPeriod (some k) (some status))).onLink fun l => { l with fence := none }

/-- R150 step 1: the buffers at the TX done of an emission. -/
def Device.settleBuffers (d : Device) (r : SendingRecord) : Device :=
  match r.kind, r.buffer with
  | .fresh, some b =>
    { d with buffers := d.buffers.map fun x =>
        if x.id = b then { x with state := .last } else if x.state = .last then OutputBuffer.freed x.id else x }
  | .repeated, some b => d.onBuffer b fun x => { x with state := .last }
  | _, _ => d

/-- R150: the TX done of an emission: the buffers, the fence it completes, and the sending record emptied. -/
def Device.endEmission (d : Device) (r : SendingRecord) : Device :=
  let settled := d.settleBuffers r
  let fenced := if d.link.fence = some r.period then settled.completeFence r.period 0 else settled
  fenced.onLink fun l => { l with sending := none }

/-- R149: the sending record whose TX done is due. -/
def Device.txDue (d : Device) : Option SendingRecord :=
  match d.link.sending with
  | none => none
  | some r =>
    if (d.mode = .streaming ∨ d.mode = .stopping) ∧ d.txDoneTime r.period ≤ d.now then some r else none

/-! ### What the transmit link sends (R149, R154) -/

/-- R149: a sample of the picture being sent: of the SENDING buffer, or 128 for a GREY frame; nothing between emissions. -/
def State.txSample (s : State) (p : Plane) (i j : Nat) : Option Byte :=
  match s.dev.link.sending with
  | none => none
  | some r =>
    match r.buffer with
    | none => some 128
    | some b =>
      some (s.mem.read (sampleAddress (bufferBase b) s.dev.outputSize.1 s.dev.outputSize.2 p i j))

/-- R154: the trailer line, Wo bytes: the 53 bytes of Table 9-6 and zeros after them. -/
def Device.trailerLine (d : Device) : Option (List Byte) :=
  match d.link.sending, d.link.lastTrailer with
  | some _, some t => some (t.bytes ++ List.replicate (d.outputSize.1 - 53) 0)
  | _, _ => none

end Sys2Proof.Machine
end

