-- ==== Sys2Proof/Machine/HostOps.lean ====
section
/-! DEFINITION. Sys2Proof/Machine/HostOps.lean: how a message is taken as a command (R173, Table 11-3). -/

namespace Sys2Proof.Machine

open Sys2Proof

/-- An entry of Table 11-3: Y, B, WM or I. -/
def taken : Option Status := none

/-- Table 11-3, as the status that a command is answered in a mode, or `taken` where the table says Y. -/
def availability (m : Mode) (c : Command) : Option Status :=
  match m with
  | .waking => (match c with | .getId => taken | .getStatus => taken | _ => some .busy)
  | .resetting => (match c with | .getId => taken | .getStatus => taken | _ => some .busy)
  | .dormant =>
    match c with
    | .getId | .getStatus | .wake | .getPortStatus | .calRead | .getView | .getHandoff | .eventConfig | .getEvents
    | .ackEvents | .getFault | .clearFault => taken
    | .sleep => some .ignored
    | _ => some .wrongMode
  | .standby =>
    match c with
    | .wake => some .ignored
    | .zoomRequest | .zoomCancel | .handoffHold | .motionSample | .streamStop | .outputFence => some .wrongMode
    | _ => taken
  | .streaming =>
    match c with
    | .wake => some .ignored
    | .sleep | .portConfig | .calWrite | .outputConfig | .handoffConfig | .zoomSet | .streamStart => some .wrongMode
    | _ => taken
  | .stopping =>
    match c with
    | .wake => some .ignored
    | .streamStop => some .busy
    | .getId | .getStatus | .softReset | .getPortStatus | .calRead | .getView | .getHandoff | .eventConfig | .getEvents
    | .ackEvents | .getFault | .clearFault => taken
    | _ => some .wrongMode

/-- What the owner of a command answers: its reply and the device as it leaves it. -/
abbrev Answer := Reply × Device

/-- A reply of length 0. -/
def Reply.bare (st : Status) : Reply := { status := st, payload := [] }

/-- A refusal by the owning rule: the reply, and nothing changed. -/
def Device.refuse (d : Device) (st : Status) : Answer := (Reply.bare st, d)

/-- R173 steps 3, 5 and 6, R174: a well-formed message taken at a port: answered by Table 11-3, or handed to the block that
owns it; the reply is placed in the port's slot with the state the owner leaves. While RESET_N is low neither port takes a
command (R160). -/
def Device.takeCommand (d : Device) (p : CmdPort) (c : Command) (owner : Device → Answer) : Device :=
  if d.ctl.resetLow then d
  else
    match availability d.mode c with
    | some st => d.setReply p (Reply.bare st)
    | none => (owner d).2.setReply p (owner d).1

/-- R173 steps 1 to 4 for a message that is no well-formed command: the refusal it is answered with, none for a message
that is one, or that holds no byte (R171: that write is not a command). -/
def messageRefusal (m : Mode) (message : List Byte) : Option Status :=
  match message with
  | [] => none
  | [_] => some .badLength
  | code :: len :: payload =>
    if 30 < len.toNat ∨ payload.length ≠ len.toNat then some .badLength
    else
      match Command.ofCode? code.toNat with
      | none => some .unknownCommand
      | some c =>
        if availability m c = some .busy ∧ (m = .waking ∨ m = .resetting) then some .busy
        else if (decodePayload .a c payload).isNone then some .badLength
        else none

/-- R173: a message that is no well-formed command changes its port's reply slot and nothing else. -/
def Device.takeMalformed (d : Device) (p : CmdPort) (message : List Byte) : Device :=
  if d.ctl.resetLow then d
  else
    match messageRefusal d.mode message with
    | some st => d.setReply p (Reply.bare st)
    | none => d

end Sys2Proof.Machine
end

