-- ==== Sys2Proof/Machine/Reports.lean ====
section
/-! DEFINITION. Sys2Proof/Machine/Reports.lean: the reply payloads of the query commands, field by field in the order of
the rule that defines each (R9, R52, R82, R125, R155, R177, R178, R183, R186), at the widths of R175. -/

namespace Sys2Proof.Machine

open Sys2Proof

/-! ### GET_STATUS (R177) -/

/-- R177 item 5: the newest sample's ex, ey, q and stamp. -/
def MotionSample.bytes (x : MotionSample) : List Byte := signedLE 2 x.ex ++ signedLE 2 x.ey ++ u16 x.q ++ u48 x.stamp

/-- R177 item 8: a slot's state, owner, content period and use count. -/
def Slot.bytes (s : Slot) : List Byte :=
  u8 s.state.number ++ optionalField 1 portByte s.owner ++ optionalField 4 u32 s.period ++ u8 s.useCount

/-- R177: the payload of GET_STATUS on a port, 158 bytes. -/
def Device.statusPayload (d : Device) (p : CmdPort) : List Byte :=
  u8 d.mode.number ++ u8 (d.host p).cause.number ++ u48 d.now ++
    optionalField 6 u48 (d.ctl.session.map Session.start) ++ optionalField 4 u32 d.currentPeriod ++
    u8 d.motion.length ++ optionalField 12 MotionSample.bytes d.motion.getLast? ++ u16 d.motionLevel ++
    u8 d.planner.captureSelect.number ++ flagByte d.planner.markPending ++
    u32 d.composePoint ++ PortId.all.flatMap (fun m => u8 (d.quota m) ++ u8 (d.ownedCount m)) ++
    d.slots.flatMap Slot.bytes

/-! ### GET_PORT_STATUS (R125) -/

/-- 11.5: the configuration as the nine fields of the PORT_CONFIG payload. -/
def portConfigBytes (m : PortId) (c : PortConfig) : List Byte :=
  portByte m ++ u16 c.width ++ u16 c.height ++ u32 c.readout ++ u32 c.exposure ++ u32 c.deadline ++ u8 c.quota ++
    u8 c.policy.number ++ u8 c.divisor

/-- R125: in SEEKING, the round (1..4) and the window's lane count. -/
def ModulePort.seekField (q : ModulePort) : Option (Nat × Lanes) :=
  if q.state = .seeking then some (q.window / 3 + 1, seekLanes q.window) else none

/-- R125: the payload of GET_PORT_STATUS. The round with the window's lane count, and the head record's period with its
deadline, stand behind one presence byte each pair (the model's choice, assumption log 34). -/
def Device.portStatusPayload (d : Device) (m : PortId) : List Byte :=
  let q := d.port m
  optionalField 20 (portConfigBytes m) q.config ++ u8 q.state.number ++ u8 ((q.lanes.map Lanes.toNat).getD 0) ++
    optionalField 2 (fun x => u8 x.1 ++ u8 x.2.toNat) q.seekField ++ u32 q.newestExposure ++ u16 q.frameCounter ++
    u8 q.expectations.length ++
    optionalField 10 (fun e => u32 e.period ++ u48 e.deadline) q.expectations.head? ++
    u8 q.badPeriods ++ u8 q.goodRun ++ u8 q.stallAge ++ u8 q.allowance.number ++
    u16 q.good ++ u16 q.missed ++ u16 q.faulted ++ u16 q.dropped ++ u16 q.skips

/-! ### CAL_READ (R9) -/

/-- R9: the payload of CAL_READ: the record, its derived bounds (0 for an unwritten record) and the current Zmin. -/
def Device.calPayload (d : Device) (m : PortId) : List Byte :=
  let c := d.calOf m
  portByte m ++ flagByte c.written ++ u16 c.base ++ u16 c.trim ++ u16 c.cx ++ u16 c.cy ++ u8 c.margin ++ u16 c.lower ++
    u16 (d.downOf m) ++ u16 (d.upOf m) ++ u16 d.zmin

/-! ### GET_VIEW (R155) -/

/-- R155: a pending record's outcome by number, COMPOSING 0, SKIPPED 1 (assumption log 13); neither the buffer id nor the
cause is sent with it (the model's choice, assumption log 35). -/
def PendingOutcome.number : PendingOutcome → Nat
  | .composing _ => 0
  | .skipped _ => 1

/-- R155: the payload of GET_VIEW. -/
def Device.viewPayload (d : Device) : List Byte :=
  let l := d.link
  optionalField 53 Trailer.bytes l.lastTrailer ++
    optionalField 5 (fun r => u8 r.kind.number ++ u32 r.period) l.sending ++
    optionalField 5 (fun r => u32 r.period ++ u8 r.outcome.number) l.pending ++
    d.buffers.flatMap (fun b => u8 b.state.number ++ optionalField 4 u32 b.period) ++
    optionalField 4 u32 (d.composing.map Composition.period) ++
    u8 l.nonFresh ++ flagByte l.frozenReported ++ optionalField 4 u32 l.fence

/-! ### GET_HANDOFF (R178) -/

/-- R52: the ramp's request id, Z_s, Z_t, N and j. -/
def Ramp.bytes (r : Ramp) : List Byte := u8 r.id ++ u16 r.start ++ u16 r.target ++ u8 r.length ++ u8 r.step

/-- Table 4-3: a residual record. -/
def Residual.bytes (r : Residual) : List Byte :=
  signedLE 1 r.rx ++ signedLE 1 r.ry ++ u8 r.score ++ u8 r.accepted.number

/-- Table 4-3: the hand-off context. -/
def HandoffContext.bytes (c : HandoffContext) : List Byte :=
  portByte c.dest ++ u8 c.direction.number ++ u8 c.prepared ++ u8 c.elapsed ++ u8 c.deferral ++
    optionalField 4 Residual.bytes c.residual ++ u8 c.step

/-- R82: the last change record. -/
def LastChange.bytes (c : LastChange) : List Byte :=
  optionalField 1 portByte c.old ++ portByte c.new ++ u8 c.reason.number ++ u32 c.period

/-- Table 5-1: the probe context. -/
def ProbeContext.bytes (c : ProbeContext) : List Byte :=
  portByte c.activePort ++ portByte c.destPort ++ u8 c.activeSlot ++ u8 c.destSlot ++ u32 c.period ++ u16 c.zoom ++
    signedLE 2 c.ex ++ signedLE 2 c.ey ++ u48 c.start

/-- Table 5-2: the last result record; present = no with every other field 0 when no probe has completed. -/
def probeResultBytes : Option ProbeResult → List Byte
  | none => List.replicate 20 0
  | some r =>
    flagByte true ++ portByte r.activePort ++ portByte r.destPort ++ u32 r.period ++ signedLE 1 r.rx ++
      signedLE 1 r.ry ++ u8 r.bestCost ++ u8 r.contrast ++ u8 r.score ++ flagByte r.accepted ++ flagByte r.taken ++
      u48 r.time

/-- R178: the payload of GET_HANDOFF. The probe state is sent as IDLE 0 and IN_FLIGHT 1, the order in which R83 names the
two (assumption log 13). -/
def Device.handoffPayload (d : Device) : List Byte :=
  let p := d.planner
  u16 p.nominal ++ optionalField 7 Ramp.bytes p.ramp ++ u8 p.queue.length ++
    optionalField 1 u8 (p.queue.head?.map ZoomEntry.id) ++
    optionalField 1 (fun st => u8 st.number) p.state ++ optionalField 1 portByte d.activePort ++
    PortId.all.flatMap (fun m => u8 (d.role m).number ++ u8 (p.bars.get m)) ++ u16 p.applied ++
    optionalField 11 HandoffContext.bytes p.context ++ flagByte d.probe.isSome ++ u8 p.hold ++ u8 p.guard ++
    optionalField 8 LastChange.bytes p.lastChange ++
    u8 (if d.probe.isSome then 1 else 0) ++ optionalField 20 ProbeContext.bytes d.probe ++
    probeResultBytes d.probeResult

/-! ### GET_EVENTS (R183) and GET_FAULT (R186) -/

/-- R183: one listed record, 14 bytes; an absent field is sent as zeros, its presence bit clear. -/
def EventRecord.bytes (r : EventRecord) : List Byte :=
  let x := r.detail.getD EventDetail.empty
  u8 r.kind.number ++ u8 r.count ++ u8 x.presence ++ u8 ((x.port.map PortId.toNat).getD 0) ++ u8 (x.requestId.getD 0) ++
    u32 (x.period.getD 0) ++ u8 (x.reason.getD 0) ++ u16 ((x.zooms.map Prod.fst).getD 0) ++
    u16 ((x.zooms.map Prod.snd).getD 0)

/-- R183: the pending records in listing order: URGENT first, then NORMAL, each group in ascending kind number. -/
def EventSet.listing (e : EventSet) : List EventRecord :=
  (e.records.filter fun r => r.pending && r.urgent) ++ (e.records.filter fun r => r.pending && !r.urgent)

/-- R183: the payload of GET_EVENTS on a port. -/
def Device.eventsPayload (d : Device) (p : CmdPort) : List Byte :=
  let e := d.eventSet p
  let listed := e.listing.take 18
  u8 e.listing.length ++ u8 (bitsOf [e.urgentMaster, e.normalMaster, d.attention p]) ++ u8 listed.length ++
    listed.flatMap EventRecord.bytes

/-- R186: the payload of GET_FAULT; kind and time are 0 when the record is not present. -/
def FaultCapture.bytes (f : FaultCapture) : List Byte :=
  flagByte f.captured.isSome ++ u8 ((f.captured.map fun c => c.kind.number).getD 0) ++
    optionalField 1 portByte (f.captured.bind CapturedFault.port) ++
    optionalField 4 u32 (f.captured.bind CapturedFault.period) ++ u48 ((f.captured.map CapturedFault.time).getD 0) ++
    optionalField 1 u8 (f.captured.bind CapturedFault.reason) ++ u8 f.overflow

end Sys2Proof.Machine
end

