-- ==== Sys2Proof/Machine/ModeOps.lean ====
section
/-! DEFINITION. Sys2Proof/Machine/ModeOps.lean: power-on, resets, waking, sleeping, and the start, the stop and the drain of
a stream (Chapter 10). -/

namespace Sys2Proof.Machine

open Sys2Proof

/-! ### Power-on and pin reset (R160, R161) -/

/-- R160, R161: every block at its power-on values, with a reset cause on both ports and the pins as given. -/
def Device.poweredOn (cause : ResetCause) (resetLow addrHigh : Bool) : Device :=
  { Device.initial with
    ctl := { ModeController.initial with resetLow := resetLow, addrHigh := addrHigh }
    hostA := { HostPort.initial with cause := cause }
    hostM := { HostPort.initial with cause := cause } }

/-! ### Soft reset (R163) -/

/-- What a SOFT_RESET taken on port p leaves of the transaction b under way at port q. At p itself it leaves b as it is: b
began after the write that carried the SOFT_RESET ended, and R172 and R173 take a write at the moment it ends, so the read
that follows it by a repeated START runs on and sends its reply. At the other port it ends a transaction of Port A (R171)
and a write to Port M, cut short and not taken (R174), and a read from Port M runs until the host's no acknowledge (R172).
Assumption log 21; that Port M acknowledges no further byte of the write cut short is assumption log 42. -/
def BusTransaction.afterSoftReset (p q : CmdPort) (b : Option BusTransaction) : Option BusTransaction :=
  if p = q then b
  else match q, b with
    | .m, some (.read left) => some (.read left)
    | _, _ => none

/-- R174, R161: a command port after a SOFT_RESET taken on port p: the reply slot kept, reset cause SOFT. -/
def Device.softResetHost (d : Device) (p q : CmdPort) : HostPort :=
  { reply := (d.host q).reply, cause := .soft, bus := BusTransaction.afterSoftReset p q (d.host q).bus }

/-- R163: entry to RESETTING by a SOFT_RESET taken on port p: every block takes its soft reset values, the calibration
records (R4), the reply slots (R174) and the running time base kept, reset cause SOFT on both ports; the event records are
cleared before MODE_CHANGED is raised. -/
def Device.softReset (d : Device) (p : CmdPort) : Device :=
  Device.enterMode
    { Device.initial with
      ctl := { ModeController.initial with
        enteredAt := d.now, timeBase := d.now, resetLow := d.ctl.resetLow, addrHigh := d.ctl.addrHigh }
      hostA := d.softResetHost p .a
      hostM := d.softResetHost p .m
      cal := d.cal }
    .resetting

/-! ### Waking and sleeping (R162, R164) -/

/-- R162: WAKE enters WAKING; the time base runs on from the value it holds. -/
def Device.startWaking (d : Device) : Device :=
  (d.onCtl fun c => { c with enteredAt := c.timeBase }).enterMode .waking

/-- R162, R163: STANDBY entered from WAKING or RESETTING, the time base set to 0 at that entry. -/
def Device.enterStandbyAtZero (d : Device) : Device :=
  (d.onCtl fun c => { c with timeBase := 0, enteredAt := 0 }).enterMode .standby

/-- R107, R162: SLEEP: every port goes OFF, a pulse or seek under way ending, and the device enters DORMANT. -/
def Device.goToSleep (d : Device) : Device := (PortId.all.foldl (fun e m => e.takeDown m .off) d).enterMode .dormant

/-- R162: the 2,000 µs of WAKING have elapsed. -/
def Device.wakeDue (d : Device) : Bool := decide (d.mode = .waking) && decide (d.ctl.enteredAt + 2000 ≤ d.now)

/-- R163: the 1,000 µs of RESETTING have elapsed. -/
def Device.softResetDue (d : Device) : Bool := decide (d.mode = .resetting) && decide (d.ctl.enteredAt + 1000 ≤ d.now)

/-! ### The start of a stream (R168, R79) -/

/-- R79: the role a port takes at the start: ACTIVE for the preferred port, its standby role for another LINKED port, COLD
for every other. -/
def Device.startRole (d : Device) (a m : PortId) : Role :=
  if m = a then .active else if (d.port m).state = .linked then d.standbyRole m else .cold

/-- R79: the View Planner's session-start values. -/
def Device.startPlanner (d : Device) (a : PortId) : Device :=
  Device.recomputeApplied
    (d.onPlanner fun p =>
      { p with roles := ⟨d.startRole a .p0, d.startRole a .p1, d.startRole a .p2, d.startRole a .p3⟩,
               state := some .steady, context := none, bars := PerPort.all 0, hold := 0, guard := 0,
               markPending := false, plans := [] })

/-- R132, R142: the Slot Manager's and the Output Link's session-start values. -/
def Device.startOutput (d : Device) : Device :=
  Device.onLink { d with composePoint := 0 } fun l => { l with nonFresh := 0, frozenReported := false }

/-- R165, R168: the session begins now; T_0 is the time base at the command. -/
def Device.beginSession (d : Device) : Device :=
  let session : Session := { start := d.now, current := 0, nextPlan := 0 }
  d.onCtl fun c => { c with session := some session }

/-- R168: an accepted STREAM_START: STREAMING is entered, every block takes its session-start values, and the first period
start is taken. -/
def Device.startStream (d : Device) (a : PortId) : Device :=
  (((d.enterMode .streaming).startPlanner a).startOutput).beginSession.startPeriod false

/-- R168: STREAM_START in STANDBY: refused BAD_PARAM without an output size and NO_SOURCE without a preferred port,
otherwise answered OK with T_0 and the ACTIVE port. With neither, BAD_PARAM (the model's choice, assumption log 36). -/
def Device.streamStart (d : Device) : Answer :=
  if d.ctl.output.size = none then d.refuse .badParam
  else
    match d.preferredCandidate with
    | none => d.refuse .noSource
    | some a => ({ status := .ok, payload := u48 d.now ++ portByte a }, d.startStream a)

/-! ### The stop and the drain (R169) -/

/-- R51, R80: the View Planner's stop action after the abandon: queue, ramp, plans, bars, hold, guard and mark emptied. -/
def Planner.stop (p : Planner) : Planner :=
  { p with queue := [], ramp := none, plans := [], bars := PerPort.all 0, hold := 0, guard := 0, markPending := false }

/-- R148: at entry to STOPPING a pending record whose outcome is SKIPPED is emptied. -/
def OutputLink.stop (l : OutputLink) : OutputLink :=
  match l.pending with
  | none => l
  | some r =>
    match r.outcome with
    | .composing _ => l
    | .skipped _ => { l with pending := none }

/-- R157: at entry to STOPPING an outstanding fence completes with status CUT. -/
def Device.cutFence (d : Device) : Device :=
  match d.link.fence with
  | none => d
  | some k => d.completeFence k 1

/-- R169: whether the drain goes on: a composition in flight, or a pending or sending record held (R148). -/
def Device.draining (d : Device) : Bool := d.composing.isSome || d.link.pending.isSome || d.link.sending.isSome

/-- R169, R80, R138, R141, R90: the end of STOPPING: STANDBY, every role NONE, the hand-off state absent, every slot and
buffer FREE, a probe in flight ended; the time base runs on. -/
def Device.enterStandbyFromStopping (d : Device) : Device :=
  let cleared := d.onPlanner fun p => { p with roles := PerPort.all .none, state := none, context := none }
  let freed : Device := { cleared with slots := Device.freeSlots, buffers := Device.freeBuffers, probe := none }
  (freed.onCtl fun c => { c with session := none }).enterMode .standby

/-- R169: the check made at each completion and TX done taken in STOPPING, and at entry to STOPPING itself. -/
def Device.drainCheck (d : Device) : Device :=
  if d.mode = .stopping ∧ d.draining = false then d.enterStandbyFromStopping else d

/-- R169: STREAM_STOP taken in STREAMING: STOPPING is entered and each block makes its stop action. -/
def Device.stopStream (d : Device) : Device :=
  let stopped := (d.enterMode .stopping).abandon .stopped d.period
  let emptied : Device :=
    { stopped.onPlanner Planner.stop with motion := [], ports := stopped.ports.map ModulePort.stop }
  ((emptied.freeAllUnheld.onLink OutputLink.stop).cutFence).drainCheck

end Sys2Proof.Machine
end

