-- ==== Sys2Proof/Machine/Clock.lean ====
section
/-! DEFINITION. Sys2Proof/Machine/Clock.lean: what falls due as the time base runs (R164, R165), and the tick that the block
makes while no command waits (assumption log 1). -/

namespace Sys2Proof.Machine

open Sys2Proof

/-! ### Due at a module port -/

/-- R110: the reset pulse has run 1,000 µs. -/
def Device.pulseDue (d : Device) (m : PortId) : Bool :=
  decide ((d.port m).state = .resetting) && decide ((d.port m).since + 1000 ≤ d.now)

/-- R111: the open seek window has run 5,000 µs. -/
def Device.seekDue (d : Device) (m : PortId) : Bool :=
  decide ((d.port m).state = .seeking) && decide ((d.port m).since + 5000 ≤ d.now)

/-- R114: the pending FSYNC whose issue time has come. -/
def Device.fsyncDue (d : Device) (m : PortId) : Option Expectation :=
  (d.port m).pendingFsync.filter fun e => decide (e.issue ≤ d.now)

/-- R115: the head record whose frame deadline the time base has reached, with the records behind it. -/
def Device.deadlineDue (d : Device) (m : PortId) : Option (Expectation × List Expectation) :=
  match (d.port m).expectations with
  | [] => none
  | e :: rest => if e.deadline ≤ d.now then some (e, rest) else none

/-- R118: the frame being filled whose fill timeout has come. -/
def Device.fillDue (d : Device) (m : PortId) : Option Fill :=
  (d.port m).filling.filter fun f => decide (d.fillLimit m f ≤ d.now)

/-- R122: a period start is due that would make the port's automatic reset. -/
def Device.autoResetDue (d : Device) (m : PortId) : Bool := d.periodDue && d.resetNext m

/-! ### The arrivals of a tick -/

/-- A command in a list of none or one. -/
def dueIf (b : Bool) (c : Instr) : List Instr := if b then [c] else []

/-- What falls due at one port. -/
def Device.dueAtPort (d : Device) (m : PortId) : List Instr :=
  dueIf (d.pulseDue m) (.resetPulseEnd m) ++ dueIf (d.seekDue m) (.seekWindowEnd m) ++
    dueIf (d.fsyncDue m).isSome (.fsyncIssue m) ++ dueIf (d.deadlineDue m).isSome (.frameDeadline m) ++
    dueIf (d.fillDue m).isSome (.fillTimeout m) ++ dueIf (d.autoResetDue m) (.autoReset m)

/-- R89: whether the probe in flight completes at this tick: at 1,500 µs at the latest, before that as the free value
says. -/
def Device.probeDue (d : Device) (i : Nat) : Bool :=
  match d.probe with
  | none => false
  | some c => decide (c.start < d.now) && (Config.probeFinishes i || decide (c.start + 1500 ≤ d.now))

/-- R146: whether the composition in flight completes at this tick, as the free value says. -/
def Device.compositionDue (d : Device) (i : Nat) : Bool := d.composing.isSome && Config.compositionFinishes i

/-- The table's rows that fall due at the time base value the device stands at, for a free index. -/
def Device.dueCommands (d : Device) (i : Nat) : List Instr :=
  dueIf d.wakeDue .wakeComplete ++ dueIf d.softResetDue .softResetComplete ++
    PortId.all.flatMap d.dueAtPort ++ dueIf (d.probeDue i) .probeComplete ++
    dueIf (d.compositionDue i) .compositionComplete ++ dueIf d.txDue.isSome .txDone ++
    dueIf d.composeDue.isSome .composeDeadline ++ dueIf d.emissionDue.isSome .emissionStart ++
    dueIf d.periodDue .periodStart

/-- A command put at a place of a list; a place beyond the end is the end. -/
def placeAt {α : Type} (x : α) : Nat → List α → List α
  | 0, l => x :: l
  | _ + 1, [] => [x]
  | n + 1, y :: l => y :: placeAt x n l

/-- Arrivals of one instant in a free order (R176 and the tables of arrivals that meet): the j-th goes to the place that
`place j` chooses among those already placed. -/
def inFreeOrder (place : Nat → Nat) : List Instr → List Instr
  | [] => []
  | c :: rest =>
    let placed := inFreeOrder place rest
    placeAt c (place rest.length % (rest.length + 1)) placed

/-- R164: whether the time base runs: in every mode except DORMANT, and not while RESET_N is low (R160). -/
def Device.clockRuns (d : Device) : Bool := !d.ctl.resetLow && decide (d.mode ≠ .dormant)

/-- One microsecond more on the time base. -/
def Device.advanceClock (d : Device) : Device := d.onCtl fun c => { c with timeBase := c.timeBase + 1 }

/-- A tick: the time base advances by 1 µs, and the rows that then fall due join the queue. While the time base stands
still nothing happens. -/
def State.tick (s : State) : State :=
  if s.dev.clockRuns then
    let d := s.dev.advanceClock
    { s with dev := d, freeIndex := s.freeIndex + 1,
             pending := s.pending ++ inFreeOrder (Config.arrivalPlace s.freeIndex) (d.dueCommands s.freeIndex) }
  else s

end Sys2Proof.Machine
end

