-- ==== Sys2Proof/Machine/Modes.lean ====
section
/-! DEFINITION. Sys2Proof/Machine/Modes.lean: the meanings of the Mode Controller's commands and events (Chapter 10, R173,
R177): power and resets, identity and status, waking and sleeping, the two configurations, and streaming. -/

namespace Sys2Proof.Machine

open Sys2Proof

/-! ### Power and the reset pin -/

/-- POWER_ON (R160, R161): every block at its power-on values, ADDR sampled (R172); frame memory holds nothing. RESET_N
keeps its level. -/
def execPowerOn (addrHigh : Bool) (s : State) : Result :=
  .next { s with dev := Device.poweredOn .powerOn s.dev.ctl.resetLow addrHigh, mem := [] }

/-- PIN_RESET (R160, R161): every block at its power-on values, RESET_N low. Frame memory is left as it stands (8.1). -/
def execPinReset (s : State) : Result :=
  .next { s with dev := Device.poweredOn .pin true s.dev.ctl.addrHigh }

/-- RESET_RELEASE (R160, R172): RESET_N is released and ADDR sampled. A RESET_N that is high has no release to
make (assumption log 9). -/
def execResetRelease (addrHigh : Bool) (s : State) : Result :=
  if s.dev.ctl.resetLow then
    .next (s.onDevice fun d => d.onCtl fun c => { c with resetLow := false, addrHigh := addrHigh })
  else .next s

/-! ### Messages -/

/-- UNKNOWN_COMMAND (R173). -/
def execUnknownCommand (p : CmdPort) (message : List Byte) (s : State) : Result :=
  .next (s.onDevice fun d => d.takeMalformed p message)

/-- R177: the vendor code, the part code and the silicon revision. -/
def identity : List Byte := u8 0x48 ++ u16 0x5A34 ++ u8 2

/-- GET_ID (R177). -/
def execGetId (p : CmdPort) (s : State) : Result :=
  .next (s.onDevice fun d => d.takeCommand p .getId fun e => ({ status := .ok, payload := identity }, e))

/-- GET_STATUS (R177, R161): the payload, and the reset cause of this port set to NONE. -/
def execGetStatus (p : CmdPort) (s : State) : Result :=
  .next (s.onDevice fun d => d.takeCommand p .getStatus fun e =>
    ({ status := .ok, payload := e.statusPayload p }, e.setCause p .cleared))

/-! ### Waking, sleeping and soft reset -/

/-- WAKE (R162). -/
def execWake (p : CmdPort) (s : State) : Result :=
  .next (s.onDevice fun d => d.takeCommand p .wake fun e => (Reply.bare .ok, e.startWaking))

/-- WAKE_COMPLETE (R162), when the 2,000 µs of WAKING have elapsed. -/
def execWakeComplete (s : State) : Result :=
  if s.dev.wakeDue then .next (s.onDevice Device.enterStandbyAtZero) else .next s

/-- SLEEP (R162). -/
def execSleep (p : CmdPort) (s : State) : Result :=
  .next (s.onDevice fun d => d.takeCommand p .sleep fun e => (Reply.bare .ok, e.goToSleep))

/-- SOFT_RESET (R163). -/
def execSoftReset (p : CmdPort) (s : State) : Result :=
  .next (s.onDevice fun d => d.takeCommand p .softReset fun e => (Reply.bare .ok, e.softReset p))

/-- SOFT_RESET_COMPLETE (R163), when the 1,000 µs of RESETTING have elapsed. -/
def execSoftResetComplete (s : State) : Result :=
  if s.dev.softResetDue then .next (s.onDevice Device.enterStandbyAtZero) else .next s

/-! ### The configurations -/

/-- A number in a range, both ends included. -/
def within (lo hi n : Nat) : Bool := decide (lo ≤ n) && decide (n ≤ hi)

/-- An even number in a range, both ends included. -/
def evenWithin (lo hi n : Nat) : Bool := within lo hi n && decide (n % 2 = 0)

/-- R167: the ranges of Table 10-2, G and E_ref against the P of the same message. -/
def outputInRange (f : OutputFields) : Bool :=
  evenWithin 640 3840 f.width.toNat && evenWithin 360 2160 f.height.toNat && within 8333 66667 f.period.toNat &&
    within 1 3 f.latency.toNat && within 1000 (f.period.toNat / 2) f.guard.toNat &&
    within 100 f.period.toNat f.exposureRef.toNat

/-- The output configuration a message carries. -/
def outputOf (f : OutputFields) : OutputConfig :=
  { size := some (f.width.toNat, f.height.toNat), period := f.period.toNat, latency := f.latency.toNat,
    guard := f.guard.toNat, exposureRef := f.exposureRef.toNat }

/-- OUTPUT_CONFIG (R167). -/
def execOutputConfig (p : CmdPort) (f : OutputFields) (s : State) : Result :=
  .next (s.onDevice fun d => d.takeCommand p .outputConfig fun e =>
    if outputInRange f then (Reply.bare .ok, e.onCtl fun c => { c with output := outputOf f })
    else e.refuse .badParam)

/-- R167: the ranges of Table 10-3. The probe threshold, the motion limit and the backoff take every value their fields
carry. -/
def handoffInRange (f : HandoffFields) : Bool :=
  within 0 100 f.hysteresis.toNat && within 1 16 f.blendLength.toNat && within 1 60 f.prepareLimit.toNat &&
    within 1 60 f.deferralLimit.toNat && within 1 15 f.stallLimit.toNat && within 5 255 f.deadLimit.toNat &&
    within 1 255 f.freezeLimit.toNat && within 0 30 f.guardLength.toNat && within 1000 100000 f.staleLimit.toNat

/-- The hand-off configuration a message carries. -/
def handoffOf (f : HandoffFields) : HandoffConfig :=
  { hysteresis := f.hysteresis.toNat, blendLength := f.blendLength.toNat, prepareLimit := f.prepareLimit.toNat,
    deferralLimit := f.deferralLimit.toNat, probeThreshold := f.probeThreshold.toNat,
    motionLimit := f.motionLimit.toNat, backoff := f.backoff.toNat, stallLimit := f.stallLimit.toNat,
    deadLimit := f.deadLimit.toNat, freezeLimit := f.freezeLimit.toNat, guardLength := f.guardLength.toNat,
    staleLimit := f.staleLimit.toNat }

/-- HANDOFF_CONFIG (R167). -/
def execHandoffConfig (p : CmdPort) (f : HandoffFields) (s : State) : Result :=
  .next (s.onDevice fun d => d.takeCommand p .handoffConfig fun e =>
    if handoffInRange f then (Reply.bare .ok, e.onCtl fun c => { c with handoff := handoffOf f })
    else e.refuse .badParam)

/-! ### Streaming -/

/-- STREAM_START (R168, R79). -/
def execStreamStart (p : CmdPort) (s : State) : Result :=
  .next (s.onDevice fun d => d.takeCommand p .streamStart Device.streamStart)

/-- STREAM_STOP (R169). -/
def execStreamStop (p : CmdPort) (s : State) : Result :=
  .next (s.onDevice fun d => d.takeCommand p .streamStop fun e => (Reply.bare .ok, e.stopStream))

/-- DRAIN_END (R169): the end of STOPPING, once nothing is busy. -/
def execDrainEnd (s : State) : Result := .next (s.onDevice Device.drainCheck)

end Sys2Proof.Machine
end

