-- ==== Sys2Proof/Machine/ModulePorts.lean ====
section
/-! DEFINITION. Sys2Proof/Machine/ModulePorts.lean: the meanings of the Module Ports' commands and events (Chapter 7). -/

namespace Sys2Proof.Machine

open Sys2Proof

/-! ### Configuration -/

/-- The frame deadline's upper bound, L×P − G (Table 7-1). -/
def OutputConfig.lastDeadline (o : OutputConfig) : Nat := o.latency * o.period - o.guard

/-- The frame deadline's lower bound, ceil(P/4) (Table 7-1). -/
def OutputConfig.firstDeadline (o : OutputConfig) : Nat := (ceilDiv o.period 4).toNat

/-- R105 check 3: the port configuration a message carries, when every field lies in its range of Table 7-1 with P, L and G
in force. -/
def portConfigOf (o : OutputConfig) (f : PortFields) : Option PortConfig :=
  match Standby.ofNat? f.policy.toNat with
  | none => none
  | some policy =>
    if evenWithin 640 4096 f.width.toNat && evenWithin 480 3072 f.height.toNat &&
        within 1000 o.period f.readout.toNat && within 10 o.period f.exposure.toNat &&
        within o.firstDeadline o.lastDeadline f.deadline.toNat && within 2 6 f.quota.toNat &&
        (decide (f.divisor.toNat = 2) || decide (f.divisor.toNat = 4)) then
      some { width := f.width.toNat, height := f.height.toNat, readout := f.readout.toNat,
             exposure := f.exposure.toNat, deadline := f.deadline.toNat, quota := f.quota.toNat, policy := policy,
             divisor := f.divisor.toNat }
    else none

/-- R105 check 4: the sum of the quotas with one port's replaced. -/
def Device.quotaSum (d : Device) (m : PortId) (quota : Nat) : Nat :=
  (PortId.all.map fun n => if n = m then quota else d.quota n).sum

/-- R105: the checks of PORT_CONFIG in order, and the acceptance. -/
def Device.configurePort (d : Device) (f : PortFields) : Answer :=
  match PortId.ofNat? f.port.toNat with
  | none => d.refuse .badParam
  | some m =>
    if (d.port m).state ≠ .off ∧ (d.port m).state ≠ .dead then d.refuse .busy
    else
      match portConfigOf d.ctl.output f with
      | none => d.refuse .badParam
      | some c =>
        if 12 < d.quotaSum m c.quota then d.refuse .badParam
        else (Reply.bare .ok, d.onPort m fun q => { q with config := some c, newestExposure := c.exposure })

/-- PORT_CONFIG (R105). -/
def execPortConfig (p : CmdPort) (f : PortFields) (s : State) : Result :=
  .next (s.onDevice fun d => d.takeCommand p .portConfig fun e => e.configurePort f)

/-! ### Bring-up and taking down -/

/-- R108: PORT_ENABLE at the port a byte names. -/
def Device.enablePort (d : Device) (port : Byte) : Answer :=
  match PortId.ofNat? port.toNat with
  | none => d.refuse .badParam
  | some m =>
    if (d.port m).config = none then d.refuse .badParam
    else if (d.port m).state = .resetting ∨ (d.port m).state = .seeking then (Reply.bare .ignored, d)
    else (Reply.bare .ok, d.bringUp m .available .portReset)

/-- PORT_ENABLE (R108). -/
def execPortEnable (p : CmdPort) (port : Byte) (s : State) : Result :=
  .next (s.onDevice fun d => d.takeCommand p .portEnable fun e => e.enablePort port)

/-- R109: PORT_DISABLE at the port a byte names. -/
def Device.disablePort (d : Device) (port : Byte) : Answer :=
  match PortId.ofNat? port.toNat with
  | none => d.refuse .badParam
  | some m => (Reply.bare .ok, d.disable m)

/-- PORT_DISABLE (R109). -/
def execPortDisable (p : CmdPort) (port : Byte) (s : State) : Result :=
  .next (s.onDevice fun d => d.takeCommand p .portDisable fun e => e.disablePort port)

/-- R125: GET_PORT_STATUS of the port a byte names. -/
def Device.portStatus (d : Device) (port : Byte) : Answer :=
  match PortId.ofNat? port.toNat with
  | none => d.refuse .badParam
  | some m => ({ status := .ok, payload := d.portStatusPayload m }, d)

/-- GET_PORT_STATUS (R125). -/
def execGetPortStatus (p : CmdPort) (port : Byte) (s : State) : Result :=
  .next (s.onDevice fun d => d.takeCommand p .getPortStatus fun e => e.portStatus port)

/-- AUTO_RESET (R122): the period start that brings a STALLED port's stall age to the dead limit, taken by the port before
the View Planner (assumption log 7). -/
def execAutoReset (m : PortId) (s : State) : Result :=
  if s.dev.autoResetDue m then
    .next (s.onDevice fun d => (d.enterPeriod d.nextPeriod d.nextPeriod).autoReset m)
  else .next s

/-! ### FSYNC, pulses and seek windows -/

/-- FSYNC_ISSUE (R114, R115), when the issue time of the pending FSYNC has come. -/
def execFsyncIssue (m : PortId) (s : State) : Result :=
  match s.dev.fsyncDue m with
  | some e => .next (s.onDevice fun d => d.issueFsync m e)
  | none => .next s

/-- RESET_PULSE_END (R110), when the pulse has run 1,000 µs. -/
def execResetPulseEnd (m : PortId) (s : State) : Result :=
  if s.dev.pulseDue m then .next (s.onDevice fun d => d.openSeek m) else .next s

/-- SEEK_WINDOW_END (R111), when the window has run 5,000 µs. -/
def execSeekWindowEnd (m : PortId) (s : State) : Result :=
  if s.dev.seekDue m then .next (s.onDevice fun d => d.endSeekWindow m) else .next s

/-! ### Frame reception -/

/-- FRAME_START (R112, R116, R119). -/
def execFrameStart (m : PortId) (h : FrameHeader) (s : State) : Result :=
  .next (s.onDevice fun d => d.takeFrameStart m h)

/-- R118: the reason of a pixel line that arrives beyond the Hm-th. -/
def extraLineReason (checkOk : Bool) : FaultReason :=
  if checkOk then .size else if Config.extraBadLineIsCrc then .crc else .size

/-- 8.1: one pixel line written into a W×H picture stored from `base`: its luma row, and the chroma row it comes with. -/
def Memory.writeLine (mem : Memory) (base w h line : Nat) (y u v : List Byte) : Memory :=
  let luma := mem.writeBytes (sampleAddress base w h .y 0 line) (y.take w)
  let chroma := luma.writeBytes (sampleAddress base w h .u 0 (line / 2)) (u.take (w / 2))
  chroma.writeBytes (sampleAddress base w h .v 0 (line / 2)) (v.take (w / 2))

/-- R116: a pixel line of the frame being filled, stored and counted. -/
def State.storeLine (s : State) (m : PortId) (f : Fill) (y u v : List Byte) : State :=
  let size := s.dev.frameSize m
  { s with
    dev := s.dev.onPort m fun q => { q with filling := some { f with lines := f.lines + 1 } }
    mem := s.mem.writeLine (slotBase f.slot) size.1 size.2 f.lines y u v }

/-- PIXEL_LINE (R116, R118): a line of the frame being filled is stored, or faults the frame CRC or SIZE; a line of no such
frame is discarded. -/
def execPixelLine (m : PortId) (y u v : List Byte) (checkOk : Bool) (s : State) : Result :=
  match (s.dev.port m).filling with
  | none => .next s
  | some f =>
    if (s.dev.frameSize m).2 ≤ f.lines then
      .next (s.onDevice fun d => d.faultFill m f (extraLineReason checkOk))
    else if !checkOk then .next (s.onDevice fun d => d.faultFill m f .crc)
    else if s.dev.frameInMemory f.slot m then .next (s.storeLine m f y u v)
    else .fault .frameMemoryRange

/-- FRAME_END (R117, R118). -/
def execFrameEnd (m : PortId) (s : State) : Result := .next (s.onDevice fun d => d.takeFrameEnd m)

/-- FILL_TIMEOUT (R118), when the time base has reached frame start + 2 × readout time. -/
def execFillTimeout (m : PortId) (s : State) : Result :=
  match s.dev.fillDue m with
  | some f => .next (s.onDevice fun d => d.faultFill m f .timeout)
  | none => .next s

/-- FRAME_DEADLINE (R115), when the time base has reached the head record's deadline. -/
def execFrameDeadline (m : PortId) (s : State) : Result :=
  match s.dev.deadlineDue m with
  | some x => .next (s.onDevice fun d => d.passDeadline m x.1 x.2)
  | none => .next s

end Sys2Proof.Machine
end

