-- ==== Sys2Proof/Machine/Calibration.lean ====
section
/-! DEFINITION. Sys2Proof/Machine/Calibration.lean: the meanings of the Calibration Table's commands (Chapter 1). -/

namespace Sys2Proof.Machine

open Sys2Proof

/-- R6 check 4: the ranges of b, s and g. -/
def calInRange (f : CalFields) : Bool :=
  within 25 5000 f.base.toNat && within 970 1030 f.trim.toNat && within 0 200 f.margin.toNat

/-- R7: the record a CAL_WRITE carries. -/
def calibrationOf (f : CalFields) : Calibration :=
  { written := true, base := f.base.toNat, trim := f.trim.toNat, cx := f.cx.toNat, cy := f.cy.toNat,
    margin := f.margin.toNat }

/-- R6, R7: the checks of CAL_WRITE in order, and the write. -/
def Device.calWrite (d : Device) (f : CalFields) : Answer :=
  match PortId.ofNat? f.port.toNat with
  | none => d.refuse .badParam
  | some m =>
    if (d.calOf m).written then d.refuse .locked
    else
      match (d.port m).config with
      | none => d.refuse .badParam
      | some c =>
        if !calInRange f then d.refuse .badParam
        else if f.cx.toNat < c.width ∧ f.cy.toNat < c.height then
          (Reply.bare .ok, { d with cal := d.cal.set m (calibrationOf f) })
        else d.refuse .badParam

/-- CAL_WRITE (R5 to R7). -/
def execCalWrite (p : CmdPort) (f : CalFields) (s : State) : Result :=
  .next (s.onDevice fun d => d.takeCommand p .calWrite fun e => e.calWrite f)

/-- R9: CAL_READ of the port a byte names. -/
def Device.calRead (d : Device) (port : Byte) : Answer :=
  match PortId.ofNat? port.toNat with
  | none => d.refuse .badParam
  | some m => ({ status := .ok, payload := d.calPayload m }, d)

/-- CAL_READ (R9). -/
def execCalRead (p : CmdPort) (port : Byte) (s : State) : Result :=
  .next (s.onDevice fun d => d.takeCommand p .calRead fun e => e.calRead port)

end Sys2Proof.Machine
end

