-- ==== Sys2Proof/Machine/Zoom.lean ====
section
/-! DEFINITION. Sys2Proof/Machine/Zoom.lean: the meanings of the zoom commands (Chapter 3). -/

namespace Sys2Proof.Machine

open Sys2Proof

/-- R38: the nominal zoom set, clamped into the zoom limits. Where the clamp changes Z to the present nominal the rule has
both CLAMPED and OK; the model answers CLAMPED (the model's choice, assumption log 38). -/
def Device.zoomSet (d : Device) (z : Nat) : Answer :=
  let set := d.clampZoom z
  ({ status := if set = z then .ok else .clamped, payload := u16 set }, d.onPlanner fun p => { p with nominal := set })

/-- ZOOM_SET (R38). -/
def execZoomSet (p : CmdPort) (z : Word16) (s : State) : Result :=
  .next (s.onDevice fun d => d.takeCommand p .zoomSet fun e => e.zoomSet z.toNat)

/-! ### Requests -/

/-- R40: the entry a request becomes, its target clamped into the zoom limits and its N lowered to 240. -/
def Device.zoomEntry (d : Device) (id : Byte) (target : Word16) (n : Byte) : ZoomEntry :=
  { id := id.toNat, target := d.clampZoom target.toNat, length := min 240 n.toNat }

/-- R40: the reply of a request taken: CLAMPED when its target or N was changed, with the target and N as clamped and the
figure R41 or R42 names. -/
def zoomReply (e : ZoomEntry) (target : Word16) (n : Byte) (figure : Nat) : Reply :=
  { status := if e.target = target.toNat ∧ e.length = n.toNat then .accepted else .clamped,
    payload := u16 e.target ++ u8 e.length ++ u8 figure }

/-- R40, R41: an APPEND; a mode byte that names no mode is refused first, then a full queue. -/
def Device.zoomAppend (d : Device) (id : Byte) (target : Word16) (n : Byte) (mode : Byte) : Answer :=
  if mode.toNat ≠ 0 then d.refuse .badParam
  else if 8 ≤ d.planner.queue.length then d.refuse .queueFull
  else
    let e := d.zoomEntry id target n
    (zoomReply e target n (d.planner.queue.length + 1), d.onPlanner fun p => { p with queue := p.queue ++ [e] })

/-- ZOOM_REQUEST_APPEND (R40, R41). -/
def execZoomRequestAppend (p : CmdPort) (id : Byte) (target : Word16) (n : Byte) (mode : Byte) (s : State) : Result :=
  .next (s.onDevice fun d => d.takeCommand p .zoomRequest fun e => e.zoomAppend id target n mode)

/-- R42: the number of requests that a REPLACE or ZOOM_CANCEL drops. -/
def Planner.dropCount (p : Planner) : Nat := p.queue.length + (if p.ramp.isSome then 1 else 0)

/-- R42: the id of the first request dropped: the running ramp's, otherwise the head entry's. -/
def Planner.firstDropped (p : Planner) : Option Nat :=
  match p.ramp with
  | some r => some r.id
  | none => p.queue.head?.map ZoomEntry.id

/-- R42, R43: the running ramp ended at the current nominal, the queue left with the given entries, and ZOOM_DROPPED raised
once when at least one request was dropped. The reason is 0 REPLACE or 1 CANCEL (Table 12-1). -/
def Device.dropRequests (d : Device) (left : List ZoomEntry) (reason : Nat) : Device :=
  let emptied := d.onPlanner fun p => { p with ramp := none, queue := left }
  if 0 < d.planner.dropCount then
    emptied.raise .zoomDropped
      { EventDetail.empty with
          requestId := d.planner.firstDropped, period := d.currentPeriod, reason := some reason }
  else emptied

/-- R42: a REPLACE. -/
def Device.zoomReplace (d : Device) (id : Byte) (target : Word16) (n : Byte) : Answer :=
  let e := d.zoomEntry id target n
  (zoomReply e target n d.planner.dropCount, d.dropRequests [e] 0)

/-- ZOOM_REQUEST_REPLACE (R40, R42). -/
def execZoomRequestReplace (p : CmdPort) (id : Byte) (target : Word16) (n : Byte) (s : State) : Result :=
  .next (s.onDevice fun d => d.takeCommand p .zoomRequest fun e => e.zoomReplace id target n)

/-- R43. -/
def Device.zoomCancel (d : Device) : Answer :=
  ({ status := .ok, payload := u8 d.planner.dropCount }, d.dropRequests [] 1)

/-- ZOOM_CANCEL (R43). -/
def execZoomCancel (p : CmdPort) (s : State) : Result :=
  .next (s.onDevice fun d => d.takeCommand p .zoomCancel Device.zoomCancel)

end Sys2Proof.Machine
end

