-- ==== Sys2Proof/Machine/Inputs.lean ====
section
/-! DEFINITION. Sys2Proof/Machine/Inputs.lean: the meanings of the hold, the capture input and the motion samples
(Chapter 6). -/

namespace Sys2Proof.Machine

open Sys2Proof

/-! ### The hand-off hold -/

/-- R99: the hold counter set, and answered as set. -/
def Device.setHold (d : Device) (n : Nat) : Answer :=
  ({ status := .ok, payload := u8 n }, d.onPlanner fun p => { p with hold := n })

/-- R99, 11.5: a hold with an on byte other than 0: 1 with a limit of 1..255 sets the counter, any other is refused. -/
def Device.holdOn (d : Device) (on limit : Byte) : Answer :=
  if on.toNat ≠ 1 then d.refuse .badParam
  else if limit.toNat = 0 then d.refuse .badParam
  else d.setHold limit.toNat

/-- HANDOFF_HOLD_ON (R99). -/
def execHandoffHoldOn (p : CmdPort) (on limit : Byte) (s : State) : Result :=
  .next (s.onDevice fun d => d.takeCommand p .handoffHold fun e => e.holdOn on limit)

/-- HANDOFF_HOLD_OFF (R99): the counter becomes 0, whatever the limit field carries. -/
def execHandoffHoldOff (p : CmdPort) (_limit : Byte) (s : State) : Result :=
  .next (s.onDevice fun d => d.takeCommand p .handoffHold fun e => e.setHold 0)

/-! ### The capture input -/

/-- R101. -/
def Device.captureConfig (d : Device) (edge : Byte) : Answer :=
  match CaptureSelect.ofNat? edge.toNat with
  | none => d.refuse .badParam
  | some c => (Reply.bare .ok, d.onPlanner fun p => { p with captureSelect := c })

/-- CAPTURE_CONFIG (R101). -/
def execCaptureConfig (p : CmdPort) (edge : Byte) (s : State) : Result :=
  .next (s.onDevice fun d => d.takeCommand p .captureConfig fun e => e.captureConfig edge)

/-- R102: a transition of the CAPTURE line; one that is not selected, or that comes outside STREAMING, changes nothing. -/
def Device.captureEdge (d : Device) (e : Edge) : Device :=
  if d.mode = .streaming ∧ d.planner.captureSelect.includes e = true then
    (d.raise .captureEdge (EventDetail.ofPeriod d.currentPeriod (some (edgeNumber e)))).onPlanner fun p =>
      { p with guard := d.ctl.handoff.guardLength, markPending := true }
  else d

/-- CAPTURE_EDGE (R102). -/
def execCaptureEdge (e : Edge) (s : State) : Result := .next (s.onDevice fun d => d.captureEdge e)

/-! ### Motion samples -/

/-- R94, R95: a sample saturated, stamped and added to the ring; MOTION_OVERRUN when the ring was full. -/
def Device.motionSample (d : Device) (ex ey q : Word16) : Answer :=
  let x := saturateShift d.outputSize.1 ex.toInt
  let y := saturateShift d.outputSize.2 ey.toInt
  let ring := ringIntake d.motion { ex := x, ey := y, q := q.toNat, stamp := d.now }
  let taken : Device := { d with motion := ring }
  ({ status := if x = ex.toInt ∧ y = ey.toInt then .ok else .clamped,
     payload := signedLE 2 x ++ signedLE 2 y ++ u8 ring.length },
   if 32 ≤ d.motion.length then taken.raise .motionOverrun (EventDetail.ofPeriod d.currentPeriod none) else taken)

/-- MOTION_SAMPLE (R94, R95). -/
def execMotionSample (p : CmdPort) (ex ey q : Word16) (s : State) : Result :=
  .next (s.onDevice fun d => d.takeCommand p .motionSample fun e => e.motionSample ex ey q)

end Sys2Proof.Machine
end

