-- ==== Sys2Proof/Machine/Planning.lean ====
section
/-! DEFINITION. Sys2Proof/Machine/Planning.lean: the meanings of PERIOD_START and of the rows that are a period start whose
planning has one particular outcome (Chapters 3, 4 and 6; assumption log 6). -/

namespace Sys2Proof.Machine

open Sys2Proof

/-- R78, R92: whether a probe completion waits among the arrivals behind the one that is taken (assumption log 31). -/
def State.completionWaits (s : State) : Bool := decide (Instr.probeComplete ∈ s.pending)

/-- The period start that is due, when its planning has a given outcome; otherwise nothing changes. -/
def State.periodStartWhen (s : State) (outcome : Bool) : State :=
  if s.dev.periodDue && outcome then s.onDevice fun d => d.startPeriod s.completionWaits else s

/-- PERIOD_START (R56, R122, R165). -/
def execPeriodStart (s : State) : Result := .next (s.periodStartWhen true)

/-- RAMP_COMPLETE (R47): the ramp step completes a ramp. -/
def execRampComplete (s : State) : Result := .next (s.periodStartWhen s.dev.planner.rampStep.2.2)

/-- HOLD_EXPIRED (R100): stage 2 brings the hold counter to 0. -/
def execHoldExpired (s : State) : Result := .next (s.periodStartWhen (decide (s.dev.planner.hold = 1)))

/-- GUARD_EXPIRY (R103): stage 2 brings the capture guard to 0. -/
def execGuardExpiry (s : State) : Result := .next (s.periodStartWhen (decide (s.dev.planner.guard = 1)))

/-- BAR_EXPIRY (R57): stage 2 brings a port's bar to 0. -/
def execBarExpiry (m : PortId) (s : State) : Result :=
  .next (s.periodStartWhen (decide (s.dev.planner.bars.get m = 1)))

/-- R63: whether the PREPARE evaluation of the next planning reaches the prepare limit. -/
def Device.prepareTimesOut (d : Device) : Bool :=
  let e := d.beforeEvaluation
  match e.planner.state, e.planner.context with
  | some .prepare, some c => !e.reversed c && decide (e.ctl.handoff.prepareLimit ≤ c.elapsed + 1)
  | _, _ => false

/-- PREPARE_TIMEOUT (R63, R69). -/
def execPrepareTimeout (s : State) : Result := .next (s.periodStartWhen s.dev.prepareTimesOut)

/-- R65: whether the PROBE evaluation of the next planning skips the probe, with no probe to start or, where a completion
meets the planning, with the probe of that completion in flight (R92). -/
def Device.probeSkips (d : Device) (met : Bool) : Bool :=
  let e := d.beforeEvaluation
  match e.planner.state, e.planner.context with
  | some .probe, some c =>
    !e.reversed c && (e.completionArrived met || (e.probe.isNone && e.probePair.isNone)) && decide (e.planner.hold = 0) &&
      decide (e.ctl.handoff.deferralLimit ≤ c.deferral + 1)
  | _, _ => false

/-- PROBE_SKIP (R65). -/
def execProbeSkip (s : State) : Result := .next (s.periodStartWhen (s.dev.probeSkips s.completionWaits))

/-- R67: whether the BLEND evaluation of the next planning commits. -/
def Device.blendCommits (d : Device) : Bool :=
  match d.planner.state, d.planner.context with
  | some .blend, some c => decide (d.ctl.handoff.blendLength ≤ c.step)
  | _, _ => false

/-- BLEND_COMMIT (R67). -/
def execBlendCommit (s : State) : Result := .next (s.periodStartWhen s.dev.blendCommits)

end Sys2Proof.Machine
end

