-- ==== Sys2Proof/Machine/Probe.lean ====
section
/-! DEFINITION. Sys2Proof/Machine/Probe.lean: the meaning of PROBE_COMPLETE (Chapter 5). -/

namespace Sys2Proof.Machine

open Sys2Proof

/-- PROBE_COMPLETE (R89): the completion of the probe in flight, its measurement made from the two held frames. With no
probe in flight nothing completes. -/
def execProbeComplete (s : State) : Result :=
  match s.dev.probe with
  | none => .next s
  | some c =>
    if s.dev.probeInMemory c then .next (s.onDevice fun d => d.completeProbe c (d.measure s.mem c))
    else .fault .frameMemoryRange

end Sys2Proof.Machine
end

