-- ==== Sys2Proof/Machine/Output.lean ====
section
/-! DEFINITION. Sys2Proof/Machine/Output.lean: the meanings of the Compositor's and the Output Link's commands and events,
and of the two queries that report the view (Chapter 9, R178). -/

namespace Sys2Proof.Machine

open Sys2Proof

/-- COMPOSE_DEADLINE (R143), when the head plan's compose deadline is due. -/
def execComposeDeadline (s : State) : Result :=
  match s.dev.composeDue with
  | some x => .next (s.onDevice fun d => d.takePlan x.1 x.2)
  | none => .next s

/-- COMPOSITION_COMPLETE (R146, R147): the picture is in its buffer, the slots are released and the buffer is decided; in
STOPPING the drain is checked (R169). With no composition in flight nothing completes. -/
def execCompositionComplete (s : State) : Result :=
  match s.dev.composing with
  | none => .next s
  | some c =>
    if s.dev.compositionInMemory c then
      .next { s with dev := (s.dev.finishComposition c).drainCheck, mem := s.dev.composedMemory s.mem c }
    else .fault .frameMemoryRange

/-- EMISSION_START (R149), when the pending record's emission start is due. -/
def execEmissionStart (s : State) : Result :=
  match s.dev.emissionDue with
  | some r => .next (s.onDevice fun d => d.emit r)
  | none => .next s

/-- TX_DONE (R149, R150), when the emission's end is due; in STOPPING the drain is checked (R169). -/
def execTxDone (s : State) : Result :=
  match s.dev.txDue with
  | some r => .next (s.onDevice fun d => (d.endEmission r).drainCheck)
  | none => .next s

/-- R156: the fence made outstanding for the newest plan written; a second is refused. Between AUTO_RESET and PERIOD_START of
one period start the newest plan written is one before the last period start taken, and the fence takes the plan's period
(the model's choice, assumption log 39). -/
def Device.outputFence (d : Device) : Answer :=
  match d.link.fence with
  | some _ => d.refuse .fenceBusy
  | none =>
    let k := d.nextPeriod - 1
    ({ status := .accepted, payload := u32 k }, d.onLink fun l => { l with fence := some k })

/-- OUTPUT_FENCE (R156). -/
def execOutputFence (p : CmdPort) (s : State) : Result :=
  .next (s.onDevice fun d => d.takeCommand p .outputFence Device.outputFence)

/-- GET_VIEW (R155). -/
def execGetView (p : CmdPort) (s : State) : Result :=
  .next (s.onDevice fun d => d.takeCommand p .getView fun e => ({ status := .ok, payload := e.viewPayload }, e))

/-- GET_HANDOFF (R178). -/
def execGetHandoff (p : CmdPort) (s : State) : Result :=
  .next (s.onDevice fun d => d.takeCommand p .getHandoff fun e => ({ status := .ok, payload := e.handoffPayload }, e))

end Sys2Proof.Machine
end

