-- ==== Sys2Proof/Machine/Events.lean ====
section
/-! DEFINITION. Sys2Proof/Machine/Events.lean: the meanings of the Event Unit's commands (R179, Chapter 12). -/

namespace Sys2Proof.Machine

open Sys2Proof

/-- R179, R182: one record's enable and urgency, by its kind's bit of the two masks. -/
def EventRecord.configure (r : EventRecord) (enables urgencies : Word24) : EventRecord :=
  { r with enabled := enables.getLsbD r.kind.number, urgent := urgencies.getLsbD r.kind.number }

/-- R182: the 21 enables, the 21 urgencies and both masters of one port replaced at once. -/
def EventSet.configure (e : EventSet) (enables urgencies : Word24) (masters : Byte) : EventSet :=
  { records := e.records.map fun r => r.configure enables urgencies, urgentMaster := masters.getLsbD 0,
    normalMaster := masters.getLsbD 1 }

/-- R179: bits 21 to 23 of either mask and bits 2 to 7 of the masters byte are 0. -/
def eventFieldsValid (enables urgencies : Word24) (masters : Byte) : Bool :=
  decide (enables.toNat < 2 ^ 21) && decide (urgencies.toNat < 2 ^ 21) && decide (masters.toNat < 4)

/-- R179, R182: EVENT_CONFIG for the port it is taken on. -/
def Device.eventConfig (d : Device) (p : CmdPort) (enables urgencies : Word24) (masters : Byte) : Answer :=
  if eventFieldsValid enables urgencies masters then
    (Reply.bare .ok, d.setEventSet p ((d.eventSet p).configure enables urgencies masters))
  else d.refuse .badParam

/-- EVENT_CONFIG (R179, R182). -/
def execEventConfig (p : CmdPort) (enables urgencies : Word24) (masters : Byte) (s : State) : Result :=
  .next (s.onDevice fun d => d.takeCommand p .eventConfig fun e => e.eventConfig p enables urgencies masters)

/-- GET_EVENTS (R183). -/
def execGetEvents (p : CmdPort) (s : State) : Result :=
  .next (s.onDevice fun d => d.takeCommand p .getEvents fun e => ({ status := .ok, payload := e.eventsPayload p }, e))

/-- R184: a record acknowledged: not pending, count 0, no first detail. -/
def EventRecord.acknowledge (r : EventRecord) : EventRecord := { r with pending := false, count := 0, detail := none }

/-- R184: the records of the named kinds acknowledged. -/
def EventSet.acknowledge (e : EventSet) (kinds : List Nat) : EventSet :=
  { e with records := e.records.map fun r => if r.kind.number ∈ kinds then r.acknowledge else r }

/-- R179, R184: ACK_EVENTS on the sending port; a list whose length no message can carry is refused BAD_LENGTH (R173 step
4), a number above 20 refuses the whole command. -/
def Device.ackEvents (d : Device) (p : CmdPort) (kinds : List Byte) : Answer :=
  if kinds.length = 0 ∨ 21 < kinds.length then d.refuse .badLength
  else if kinds.any fun k => decide (20 < k.toNat) then d.refuse .badParam
  else (Reply.bare .ok, d.setEventSet p ((d.eventSet p).acknowledge (kinds.map BitVec.toNat)))

/-- ACK_EVENTS (R179, R184). -/
def execAckEvents (p : CmdPort) (kinds : List Byte) (s : State) : Result :=
  .next (s.onDevice fun d => d.takeCommand p .ackEvents fun e => e.ackEvents p kinds)

/-- GET_FAULT (R186). -/
def execGetFault (p : CmdPort) (s : State) : Result :=
  .next (s.onDevice fun d => d.takeCommand p .getFault fun e => ({ status := .ok, payload := e.events.fault.bytes }, e))

/-- R186: the fault capture record emptied. -/
def Device.clearFault (d : Device) : Device :=
  { d with events := { d.events with fault := { captured := none, overflow := 0 } } }

/-- CLEAR_FAULT (R186). -/
def execClearFault (p : CmdPort) (s : State) : Result :=
  .next (s.onDevice fun d => d.takeCommand p .clearFault fun e => (Reply.bare .ok, e.clearFault))

end Sys2Proof.Machine
end

