-- ==== Sys2Proof/Machine/Dispatch.lean ====
section
/-! DEFINITION. Sys2Proof/Machine/Dispatch.lean: one arm for each row of spec/opcode_table.json, each one direct call of its
meaning. -/

namespace Sys2Proof.Machine

open Sys2Proof

def exec (i : Instr) (s : State) : Host.Outcome State Fault Refusal :=
  match i with
  | .powerOn addrHigh => Sys2Proof.Machine.execPowerOn addrHigh s
  | .pinReset => Sys2Proof.Machine.execPinReset s
  | .resetRelease addrHigh => Sys2Proof.Machine.execResetRelease addrHigh s
  | .unknownCommand p message => Sys2Proof.Machine.execUnknownCommand p message s
  | .getId p => Sys2Proof.Machine.execGetId p s
  | .getStatus p => Sys2Proof.Machine.execGetStatus p s
  | .wake p => Sys2Proof.Machine.execWake p s
  | .wakeComplete => Sys2Proof.Machine.execWakeComplete s
  | .sleep p => Sys2Proof.Machine.execSleep p s
  | .softReset p => Sys2Proof.Machine.execSoftReset p s
  | .softResetComplete => Sys2Proof.Machine.execSoftResetComplete s
  | .portConfig p f => Sys2Proof.Machine.execPortConfig p f s
  | .portEnable p port => Sys2Proof.Machine.execPortEnable p port s
  | .portDisable p port => Sys2Proof.Machine.execPortDisable p port s
  | .getPortStatus p port => Sys2Proof.Machine.execGetPortStatus p port s
  | .calWrite p f => Sys2Proof.Machine.execCalWrite p f s
  | .calRead p port => Sys2Proof.Machine.execCalRead p port s
  | .outputConfig p f => Sys2Proof.Machine.execOutputConfig p f s
  | .handoffConfig p f => Sys2Proof.Machine.execHandoffConfig p f s
  | .zoomSet p z => Sys2Proof.Machine.execZoomSet p z s
  | .zoomRequestAppend p id target n mode => Sys2Proof.Machine.execZoomRequestAppend p id target n mode s
  | .zoomRequestReplace p id target n => Sys2Proof.Machine.execZoomRequestReplace p id target n s
  | .zoomCancel p => Sys2Proof.Machine.execZoomCancel p s
  | .handoffHoldOn p on limit => Sys2Proof.Machine.execHandoffHoldOn p on limit s
  | .handoffHoldOff p limit => Sys2Proof.Machine.execHandoffHoldOff p limit s
  | .captureConfig p edge => Sys2Proof.Machine.execCaptureConfig p edge s
  | .motionSample p ex ey q => Sys2Proof.Machine.execMotionSample p ex ey q s
  | .streamStart p => Sys2Proof.Machine.execStreamStart p s
  | .streamStop p => Sys2Proof.Machine.execStreamStop p s
  | .drainEnd => Sys2Proof.Machine.execDrainEnd s
  | .outputFence p => Sys2Proof.Machine.execOutputFence p s
  | .getView p => Sys2Proof.Machine.execGetView p s
  | .getHandoff p => Sys2Proof.Machine.execGetHandoff p s
  | .eventConfig p enables urgencies masters => Sys2Proof.Machine.execEventConfig p enables urgencies masters s
  | .getEvents p => Sys2Proof.Machine.execGetEvents p s
  | .ackEvents p kinds => Sys2Proof.Machine.execAckEvents p kinds s
  | .getFault p => Sys2Proof.Machine.execGetFault p s
  | .clearFault p => Sys2Proof.Machine.execClearFault p s
  | .periodStart => Sys2Proof.Machine.execPeriodStart s
  | .rampComplete => Sys2Proof.Machine.execRampComplete s
  | .holdExpired => Sys2Proof.Machine.execHoldExpired s
  | .guardExpiry => Sys2Proof.Machine.execGuardExpiry s
  | .barExpiry m => Sys2Proof.Machine.execBarExpiry m s
  | .prepareTimeout => Sys2Proof.Machine.execPrepareTimeout s
  | .probeSkip => Sys2Proof.Machine.execProbeSkip s
  | .blendCommit => Sys2Proof.Machine.execBlendCommit s
  | .autoReset m => Sys2Proof.Machine.execAutoReset m s
  | .fsyncIssue m => Sys2Proof.Machine.execFsyncIssue m s
  | .resetPulseEnd m => Sys2Proof.Machine.execResetPulseEnd m s
  | .seekWindowEnd m => Sys2Proof.Machine.execSeekWindowEnd m s
  | .frameStart m h => Sys2Proof.Machine.execFrameStart m h s
  | .pixelLine m y u v checkOk => Sys2Proof.Machine.execPixelLine m y u v checkOk s
  | .frameEnd m => Sys2Proof.Machine.execFrameEnd m s
  | .fillTimeout m => Sys2Proof.Machine.execFillTimeout m s
  | .frameDeadline m => Sys2Proof.Machine.execFrameDeadline m s
  | .probeComplete => Sys2Proof.Machine.execProbeComplete s
  | .captureEdge e => Sys2Proof.Machine.execCaptureEdge e s
  | .composeDeadline => Sys2Proof.Machine.execComposeDeadline s
  | .compositionComplete => Sys2Proof.Machine.execCompositionComplete s
  | .emissionStart => Sys2Proof.Machine.execEmissionStart s
  | .txDone => Sys2Proof.Machine.execTxDone s

end Sys2Proof.Machine
end

