-- ==== Sys2Proof/Machine/Bus.lean ====
section
/-! DEFINITION. Sys2Proof/Machine/Bus.lean: the bus transactions of the two command ports, edge by edge and byte by byte
(R171, R172). They reach the device from outside the queue: a write that ends puts the command it spells into the queue.
Which transactions a reset ends is said at `BusTransaction.afterSoftReset` and in assumption log 21. -/

namespace Sys2Proof.Machine

open Sys2Proof

/-! ### Shared by both buses -/

/-- The transaction under way at a command port replaced. -/
def Device.setBus (d : Device) (p : CmdPort) (b : Option BusTransaction) : Device :=
  d.setHost p { d.host p with bus := b }

/-- R171: what a read sends of the reply slot as it stands: status, length, payload. -/
def Device.replyBytes (d : Device) (p : CmdPort) : List Byte :=
  let r := (d.host p).reply
  u8 r.status.code ++ u8 r.payload.length ++ r.payload

/-- What a write of message bytes puts into the queue of waiting commands: the command it spells; a write of no byte is not
a command. -/
def State.writeMessage (s : State) (p : CmdPort) (message : List Byte) : State :=
  match message with
  | [] => s
  | _ :: _ => { s with pending := s.pending ++ [decodeMessage p message] }

/-- R171, R172: the end of the transaction under way at a port: a write is taken as a command, any other changes nothing. -/
def State.endTransaction (s : State) (p : CmdPort) : State :=
  let ended := s.onDevice fun d => d.setBus p none
  match (s.dev.host p).bus with
  | some (.write message) => ended.writeMessage p message
  | _ => ended

/-- R171: the next byte of a read and the bytes left after it; 0x00 once none is left. The reply slot is looked at for the
first byte (assumption log 21). -/
def Device.nextReplyByte (d : Device) (p : CmdPort) (left : Option (List Byte)) : Byte × List Byte :=
  match left.getD (d.replyBytes p) with
  | [] => (0, [])
  | b :: rest => (b, rest)

/-- A byte of a read under way at a port. -/
def State.sendReplyByte (s : State) (p : CmdPort) (left : Option (List Byte)) : State × Option Byte :=
  let x := s.dev.nextReplyByte p left
  (s.onDevice fun d => d.setBus p (some (.read (some x.2))), some x.1)

/-! ### Port A, SPI (R171) -/

/-- SPI_CS_N falls. -/
def State.spiSelect (s : State) : State := s.onDevice fun d => d.setBus .a (some .selected)

/-- One byte clocked with its value on SPI_SDI, and what the device drives on SPI_SDO meanwhile, none where it is
high-impedance. A transaction that a reset has ended takes no further byte. That a read is answered while RESET_N is low is
the model's choice (assumption log 37). -/
def State.spiClock (s : State) (sdi : Byte) : State × Option Byte :=
  let next := fun b : BusTransaction => s.onDevice fun d => d.setBus .a (some b)
  match (s.dev.host .a).bus with
  | none => (s, none)
  | some .selected =>
    if sdi = 0x01 then (next (.write []), none)
    else if sdi = 0x02 then (next .turnaround, none)
    else (next .ignored, none)
  | some (.write message) => (next (.write (message ++ [sdi])), none)
  | some .turnaround => (next (.read none), none)
  | some (.read left) => s.sendReplyByte .a left
  | some .ignored => (s, none)

/-- SPI_CS_N rises: the transaction ends. -/
def State.spiDeselect (s : State) : State := s.endTransaction .a

/-- Bytes clocked one after another, with what SPI_SDO carried for each. -/
def State.spiClockAll (s : State) : List Byte → State × List (Option Byte)
  | [] => (s, [])
  | b :: rest =>
    let one := s.spiClock b
    let more := State.spiClockAll one.1 rest
    (more.1, one.2 :: more.2)

/-- A whole SPI transaction with nothing else arriving meanwhile: the bytes on SPI_SDI, and what SPI_SDO carried. -/
def State.spiTransaction (s : State) (sdi : List Byte) : State × List (Option Byte) :=
  let clocked := s.spiSelect.spiClockAll sdi
  (clocked.1.spiDeselect, clocked.2)

/-! ### Port M, I2C (R172) -/

/-- R172: the 7-bit address of Port M, 0x2C with ADDR low and 0x2D with ADDR high, as sampled. -/
def Device.i2cAddress (d : Device) : Nat := if d.ctl.addrHigh then 0x2D else 0x2C

/-- A START or repeated START with an address and the read bit: a write under way ends and is taken; the address is
acknowledged when it is Port M's and RESET_N is high, and a transaction then begins. -/
def State.i2cStart (s : State) (address : Nat) (read : Bool) : State × Bool :=
  let ended := s.endTransaction .m
  if address = ended.dev.i2cAddress ∧ ended.dev.ctl.resetLow = false then
    (ended.onDevice fun d => d.setBus .m (some (if read then .read none else .write [])), true)
  else (ended, false)

/-- A byte written, and whether it is acknowledged. With no write under way, as after a reset has cut one short, it is not
(the model's choice, assumption log 42). -/
def State.i2cWriteByte (s : State) (b : Byte) : State × Bool :=
  match (s.dev.host .m).bus with
  | some (.write message) => (s.onDevice fun d => d.setBus .m (some (.write (message ++ [b]))), true)
  | _ => (s, false)

/-- A byte read, none where the port sends nothing. -/
def State.i2cReadByte (s : State) : State × Option Byte :=
  match (s.dev.host .m).bus with
  | some (.read left) => s.sendReplyByte .m left
  | _ => (s, none)

/-- A STOP, or the host's answer of no acknowledge to a byte read: the transaction ends. -/
def State.i2cStop (s : State) : State := s.endTransaction .m

end Sys2Proof.Machine
end

