-- ==== Sys2Proof/Safety.lean ====
section
/-! DEFINITION. Sys2Proof/Safety.lean: the terms in which claims speak of the commands and of the states that runs reach:
which command of Table 11-3 a row is, and the conditions that the rules promise of every state. -/

namespace Sys2Proof

/-- The command port and the command of Table 11-3 of a row that a host sends as a well-formed message. -/
def Instr.command? : Instr → Option (CmdPort × Command)
  | .getId p => some (p, .getId)
  | .getStatus p => some (p, .getStatus)
  | .wake p => some (p, .wake)
  | .sleep p => some (p, .sleep)
  | .softReset p => some (p, .softReset)
  | .portConfig p _ => some (p, .portConfig)
  | .portEnable p _ => some (p, .portEnable)
  | .portDisable p _ => some (p, .portDisable)
  | .getPortStatus p _ => some (p, .getPortStatus)
  | .calWrite p _ => some (p, .calWrite)
  | .calRead p _ => some (p, .calRead)
  | .outputConfig p _ => some (p, .outputConfig)
  | .handoffConfig p _ => some (p, .handoffConfig)
  | .zoomSet p _ => some (p, .zoomSet)
  | .zoomRequestAppend p _ _ _ _ => some (p, .zoomRequest)
  | .zoomRequestReplace p _ _ _ => some (p, .zoomRequest)
  | .zoomCancel p => some (p, .zoomCancel)
  | .handoffHoldOn p _ _ => some (p, .handoffHold)
  | .handoffHoldOff p _ => some (p, .handoffHold)
  | .captureConfig p _ => some (p, .captureConfig)
  | .motionSample p _ _ _ => some (p, .motionSample)
  | .streamStart p => some (p, .streamStart)
  | .streamStop p => some (p, .streamStop)
  | .outputFence p => some (p, .outputFence)
  | .getView p => some (p, .getView)
  | .getHandoff p => some (p, .getHandoff)
  | .eventConfig p _ _ _ => some (p, .eventConfig)
  | .getEvents p => some (p, .getEvents)
  | .ackEvents p _ => some (p, .ackEvents)
  | .getFault p => some (p, .getFault)
  | .clearFault p => some (p, .clearFault)
  | .powerOn _ => none
  | .pinReset => none
  | .resetRelease _ => none
  | .unknownCommand _ _ => none
  | .wakeComplete => none
  | .softResetComplete => none
  | .drainEnd => none
  | .periodStart => none
  | .rampComplete => none
  | .holdExpired => none
  | .guardExpiry => none
  | .barExpiry _ => none
  | .prepareTimeout => none
  | .probeSkip => none
  | .blendCommit => none
  | .autoReset _ => none
  | .fsyncIssue _ => none
  | .resetPulseEnd _ => none
  | .seekWindowEnd _ => none
  | .frameStart _ _ => none
  | .pixelLine _ _ _ _ _ => none
  | .frameEnd _ => none
  | .fillTimeout _ => none
  | .frameDeadline _ => none
  | .probeComplete => none
  | .captureEdge _ => none
  | .composeDeadline => none
  | .compositionComplete => none
  | .emissionStart => none
  | .txDone => none

/-- The port a message is taken on: that of a command, or of a message that is no well-formed command. -/
def Instr.sender? : Instr → Option CmdPort
  | .unknownCommand p _ => some p
  | i => i.command?.map Prod.fst

/-- Power-on and pin reset. -/
def Instr.isReset : Instr → Bool
  | .powerOn _ => true
  | .pinReset => true
  | _ => false

end Sys2Proof

namespace Sys2Proof.Machine

open Sys2Proof

/-! ### Conditions that the rules promise of every state -/

/-- STREAMING or STOPPING. -/
def Mode.inSession : Mode → Bool
  | .streaming => true
  | .stopping => true
  | .dormant => false
  | .waking => false
  | .standby => false
  | .resetting => false

/-- Whether a hand-off is under way in a state (Table 4-2). -/
def HandoffState.underWay : HandoffState → Bool
  | .prepare => true
  | .probe => true
  | .blend => true
  | .steady => false
  | .noSource => false

/-- R180: a record that is not pending has count 0 and no first detail; every count lies in 0..255. -/
def EventRecord.coherent (r : EventRecord) : Prop :=
  (r.pending = false → r.count = 0 ∧ r.detail = none) ∧ r.count ≤ 255

/-- R180: one port's records, one of each kind in kind order, each coherent. -/
def EventSet.coherent (e : EventSet) : Prop :=
  e.records.map EventRecord.kind = EventKind.all ∧ ∀ r ∈ e.records, r.coherent

/-- R180, R185: the records of both ports, and the overflow count in 0..255. -/
def EventUnit.coherent (e : EventUnit) : Prop := e.a.coherent ∧ e.m.coherent ∧ e.fault.overflow ≤ 255

/-- R39, R93, R115: the zoom queue holds at most 8 entries, the motion ring at most 32 samples, each expectation queue at
most 4 records. -/
def Device.queuesBounded (d : Device) : Prop :=
  d.planner.queue.length ≤ 8 ∧ d.motion.length ≤ 32 ∧ ∀ m, (d.port m).expectations.length ≤ 4

/-- R53, R55, R166: the session, the hand-off state and the roles exist exactly in STREAMING and STOPPING, and the hand-off
context exactly while a hand-off is under way. -/
def Device.sessionCoherent (d : Device) : Prop :=
  d.ctl.session.isSome = d.mode.inSession ∧ d.planner.state.isSome = d.mode.inSession ∧
    (∀ m, d.role m = .none ↔ d.mode.inSession = false) ∧
    d.planner.context.isSome = (d.planner.state.map HandoffState.underWay).getD false

/-- R127: every slot's record: FREE with no owner and no field of a frame, FILLING and READY with use count 0, HELD with use
count above 0. -/
def Slot.coherent (s : Slot) : Prop :=
  match s.state with
  | .free => s.owner = none ∧ s.period = none ∧ s.centre = none ∧ s.useCount = 0
  | .filling => s.useCount = 0
  | .ready => s.useCount = 0
  | .held => 0 < s.useCount

/-- R127: the twelve slot records, numbered 0 to 11, each coherent. -/
def Device.slotsCoherent (d : Device) : Prop :=
  d.slots.map Slot.id = List.range 12 ∧ ∀ s ∈ d.slots, s.coherent

/-- Tables 7-1 and 10-2, Table 0-2: every configured frame size, the output size and every slot and buffer number in use lie
in the ranges that frame memory was laid out for. -/
def Device.fitsMemory (d : Device) : Prop :=
  (∀ m c, (d.port m).config = some c → c.width ≤ 4096 ∧ c.height ≤ 3072) ∧
    (∀ size, d.ctl.output.size = some size → size.1 ≤ 3840 ∧ size.2 ≤ 2160) ∧
    (∀ s ∈ d.slots, s.id < 12) ∧ (∀ b ∈ d.buffers, b.id < 3) ∧
    (∀ m f, (d.port m).filling = some f → f.slot < 12) ∧
    (∀ c, d.probe = some c → c.activeSlot < 12 ∧ c.destSlot < 12) ∧
    (∀ c, d.composing = some c → c.buffer < 3 ∧ (∀ x, c.activeSlot = some x → x < 12) ∧
      ∀ y, c.destSlot = some y → y < 12)

/-- Everything above of one state. -/
structure State.Inv (s : State) : Prop where
  memory  : s.mem.wf = true
  events  : s.dev.events.coherent
  queues  : s.dev.queuesBounded
  session : s.dev.sessionCoherent
  slots   : s.dev.slotsCoherent
  fits    : s.dev.fitsMemory

/-- A safe step: it answers a next state that keeps the conditions. -/
def State.safeStep (s : State) : Prop := ∃ t, step s = .next t ∧ t.Inv

/-! ### Answers to messages -/

/-- The state after a message on a port is answered: the device as the owner leaves it, the reply in that port's slot. -/
def State.answered (s : State) (p : CmdPort) (r : Reply) (d : Device) : State := { s with dev := d.setReply p r }

/-- The state after a message is answered with a status and length 0 and changes nothing else (R173). -/
def State.refusedWith (s : State) (p : CmdPort) (st : Status) : State := s.answered p (Reply.bare st) s.dev

/-- The state with its device replaced and everything else left. -/
def State.withDevice (s : State) (d : Device) : State := { s with dev := d }

/-- The device with its Event Unit replaced and everything else left. -/
def Device.withEvents (d : Device) (e : EventUnit) : Device := { d with events := e }

/-- R165, R76: a period start is due: STREAMING with a session, the time base at or past T_k of the next planning, and fewer
than L plans waiting. -/
def Device.PeriodDue (d : Device) : Prop :=
  d.mode = .streaming ∧ ∃ x, d.ctl.session = some x ∧ x.start + x.nextPlan * d.ctl.output.period ≤ d.now ∧
    d.planner.plans.length < d.ctl.output.latency

/-! ### Values of a reset -/

/-- The values that power-on, pin reset and soft reset have in common, block by block: R37, R51, R55, R58, R74, R76, R81, R82,
R99, R101, R103 (View Planner); R83 (probe); R93 (motion ring); R104, R107, R115, R120, R122, R124 (ports); R127, R132
(slots); R141, R142 (output); R166, R167 (session and configurations). -/
structure Device.BlocksReset (d : Device) : Prop where
  zooms     : d.planner.nominal = 100 ∧ d.planner.applied = 100 ∧ d.planner.queue = [] ∧ d.planner.ramp = none
  handoff   : d.planner.state = none ∧ d.planner.context = none ∧ d.planner.plans = [] ∧ d.planner.lastChange = none
  roles     : ∀ m, d.role m = .none ∧ d.planner.bars.get m = 0
  inputs    : d.planner.hold = 0 ∧ d.planner.guard = 0 ∧ d.planner.captureSelect = .none ∧ d.planner.markPending = false
  probing   : d.probe = none ∧ d.probeResult = none
  samples   : d.motion = []
  portState : ∀ m, (d.port m).state = .off ∧ (d.port m).config = none ∧ (d.port m).lanes = none ∧
    (d.port m).newestExposure = 0 ∧ (d.port m).frameCounter = 0 ∧ (d.port m).expectations = [] ∧
    (d.port m).pendingFsync = none ∧ (d.port m).filling = none
  counts    : ∀ m, (d.port m).badPeriods = 0 ∧ (d.port m).goodRun = 0 ∧ (d.port m).stallAge = 0 ∧
    (d.port m).allowance = .available ∧ (d.port m).good = 0 ∧ (d.port m).missed = 0 ∧ (d.port m).faulted = 0 ∧
    (d.port m).dropped = 0 ∧ (d.port m).skips = 0
  slots     : d.slots.map Slot.id = List.range 12 ∧ (∀ s ∈ d.slots, s = Slot.freed s.id) ∧ d.composePoint = 0
  buffers   : d.buffers.map OutputBuffer.id = List.range 3 ∧ (∀ b ∈ d.buffers, b = OutputBuffer.freed b.id) ∧
    d.composing = none
  link      : d.link.pending = none ∧ d.link.sending = none ∧ d.link.nonFresh = 0 ∧ d.link.frozenReported = false ∧
    d.link.lastTrailer = none ∧ d.link.fence = none
  session   : d.ctl.session = none
  outputs   : d.ctl.output.size = none ∧ d.ctl.output.period = 33333 ∧ d.ctl.output.latency = 2 ∧
    d.ctl.output.guard = 4000 ∧ d.ctl.output.exposureRef = 10000
  handoffs  : d.ctl.handoff.hysteresis = 20 ∧ d.ctl.handoff.blendLength = 6 ∧ d.ctl.handoff.prepareLimit = 12 ∧
    d.ctl.handoff.deferralLimit = 15 ∧ d.ctl.handoff.probeThreshold = 96 ∧ d.ctl.handoff.motionLimit = 20000 ∧
    d.ctl.handoff.backoff = 60 ∧ d.ctl.handoff.stallLimit = 3 ∧ d.ctl.handoff.deadLimit = 45 ∧
    d.ctl.handoff.freezeLimit = 15 ∧ d.ctl.handoff.guardLength = 3 ∧ d.ctl.handoff.staleLimit = 20000
  captured  : d.events.fault.captured = none ∧ d.events.fault.overflow = 0

/-- R182: a record cleared and at its default setting. -/
def EventRecord.atDefault (r : EventRecord) : Prop :=
  r.pending = false ∧ r.count = 0 ∧ r.detail = none ∧ r.enabled = r.kind.isFault ∧ r.urgent = r.kind.isFault

/-- R182: one port's records all cleared and at their default settings, the urgent master on and the normal master off. -/
def EventSet.atDefault (e : EventSet) : Prop :=
  e.records.map EventRecord.kind = EventKind.all ∧ (∀ r ∈ e.records, r.atDefault) ∧ e.urgentMaster = true ∧
    e.normalMaster = false

/-- R3, R4, R160, R161, R171, R174, R182: what power-on and pin reset set beside the values every reset sets. -/
structure Device.PowerOnValues (d : Device) (cause : ResetCause) : Prop where
  blocks  : d.BlocksReset
  mode    : d.mode = .dormant ∧ d.now = 0
  records : ∀ m, (d.calOf m).written = false ∧ (d.calOf m).base = 0 ∧ (d.calOf m).trim = 0 ∧ (d.calOf m).cx = 0 ∧
    (d.calOf m).cy = 0 ∧ (d.calOf m).margin = 0
  replies : ∀ p, (d.host p).reply = { status := .notReady, payload := [] } ∧ (d.host p).cause = cause ∧
    (d.host p).bus = none
  events  : ∀ p, (d.eventSet p).atDefault

/-! ### Roles and zooms -/

/-- R53, R55, R73, Table 4-2: at most one port is ACTIVE; the DEST is the port of the hand-off context; in STREAMING and
STOPPING an ACTIVE port exists except in NO_SOURCE; and in STREAMING the ACTIVE and DEST ports are LINKED or STALLED, the DEST
LINKED, and a port with no link holds COLD. -/
structure Device.RolesCoherent (d : Device) : Prop where
  oneActive  : ∀ m n, d.role m = .active → d.role n = .active → m = n
  dest       : ∀ m, d.role m = .dest ↔ d.planner.context.map HandoffContext.dest = some m
  source     : d.mode.inSession = true → ((∃ m, d.role m = .active) ↔ d.planner.state ≠ some .noSource)
  linkless   : d.mode = .streaming → ∀ m, (d.port m).hasLink = false → d.role m = .cold
  destLinked : d.mode = .streaming → ∀ m, d.role m = .dest → (d.port m).state = .linked

/-- Table 3-1, Table 3-2, R6, R14, R37, R58: every zoom code held lies in 50..10000, every length is at most 240, a running
ramp has 1 ≤ N and j < N, and every calibration record lies in its ranges. -/
structure Device.ZoomsInRange (d : Device) : Prop where
  nominal : 50 ≤ d.planner.nominal ∧ d.planner.nominal ≤ 10000
  applied : 50 ≤ d.planner.applied ∧ d.planner.applied ≤ 10000
  queue   : ∀ e ∈ d.planner.queue, 50 ≤ e.target ∧ e.target ≤ 10000 ∧ e.length ≤ 240
  ramp    : ∀ r, d.planner.ramp = some r → 50 ≤ r.start ∧ r.start ≤ 10000 ∧ 50 ≤ r.target ∧ r.target ≤ 10000 ∧
    r.step < r.length ∧ r.length ≤ 240
  records : ∀ m, (d.calOf m).base ≤ 5000 ∧ (d.calOf m).margin ≤ 200

/-- R93: outside STREAMING the motion ring is empty; in it the ring holds at most 32 samples, their stamps not falling from
oldest to newest and at or before the time base. -/
structure Device.RingOrdered (d : Device) : Prop where
  size    : d.motion.length ≤ 32
  outside : d.mode ≠ .streaming → d.motion = []
  order   : d.motion.Pairwise fun x y => x.stamp ≤ y.stamp
  past    : ∀ x ∈ d.motion, x.stamp ≤ d.now

/-! ### Frames and buffers -/

/-- The FSYNCs that a port has still to see answered, in the order of their periods: the records of its expectation queue,
then its pending FSYNC. -/
def ModulePort.awaited (q : ModulePort) : List Expectation := q.expectations ++ q.pendingFsync.toList

/-- R127, R133, R114, R115, R116, R119, R123: no port owns more slots than its quota, and the quotas sum to at most 12; every
slot that is not FREE has an owner and a content period; outside STREAMING and STOPPING every slot is FREE; a frame being
filled has a FILLING slot of its port; the content periods of the slots of one port are all different; the periods a port
awaits rise, each above the content periods the port owns and below the next planning; outside STREAMING no port awaits a
frame or fills one. -/
structure Device.FramesCoherent (d : Device) : Prop where
  quotas   : (PortId.all.map d.quota).sum ≤ 12 ∧ ∀ m, d.ownedCount m ≤ d.quota m
  owned    : ∀ x ∈ d.slots, x.state ≠ .free → x.owner.isSome = true ∧ ∃ k, x.period = some k ∧ k < d.nextPeriod
  outside  : d.mode.inSession = false → ∀ x ∈ d.slots, x.state = .free
  filling  : ∀ m f, (d.port m).filling = some f → ∃ x ∈ d.slots, x.id = f.slot ∧ x.state = .filling ∧ x.owner = some m
  distinct : ∀ x ∈ d.slots, ∀ y ∈ d.slots, x.owner.isSome = true → x.owner = y.owner → x.period = y.period → x = y
  awaited  : ∀ m, ((d.port m).awaited.map Expectation.period).Pairwise (· < ·) ∧
    ∀ e ∈ (d.port m).awaited, e.period < d.nextPeriod ∧
      ∀ x ∈ d.slots, x.owner = some m → ∀ k, x.period = some k → k < e.period
  idle     : d.mode ≠ .streaming → ∀ m, (d.port m).awaited = [] ∧ (d.port m).filling = none

/-- R141, R145, R147, R149, R150: the buffers are numbered 0 to 2; the COMPOSING buffer is that of the composition in flight
and the SENDING buffer that of the sending record, so there is at most one of each; at most one buffer is LAST, and none
while a REPEAT is sent; a sending record names a buffer but for a GREY frame. -/
structure Device.BuffersCoherent (d : Device) : Prop where
  ids       : d.buffers.map OutputBuffer.id = List.range 3
  composing : ∀ b ∈ d.buffers, b.state = .composing ↔ d.composing.map Composition.buffer = some b.id
  sending   : ∀ b ∈ d.buffers, b.state = .sending ↔ d.link.sending.bind SendingRecord.buffer = some b.id
  last      : ∀ x ∈ d.buffers, ∀ y ∈ d.buffers, x.state = .last → y.state = .last → x = y
  repeating : ∀ r, d.link.sending = some r → r.kind = .repeated → ∀ b ∈ d.buffers, b.state ≠ .last
  grey      : ∀ r, d.link.sending = some r → (r.kind = .grey ↔ r.buffer = none)

end Sys2Proof.Machine
end

