-- ==== Sys2Proof/WellFormed.lean ====
section
/-! DEFINITION. Sys2Proof/WellFormed.lean: which terms of `Instr` stand for something that can reach the TZ4. Everything
else is well formed whatever its operands are: the rules answer every value a field can carry. -/

namespace Sys2Proof

/-- UNKNOWN_COMMAND stands for a message with at least one byte (R171) that is no well-formed command (R173). -/
def unknownWellFormed (p : CmdPort) (message : List Byte) : Bool :=
  !message.isEmpty && decide (decodeMessage p message = .unknownCommand p message)

/-- ZOOM_REQUEST with mode byte 1 is the row ZOOM_REQUEST_REPLACE (Table 11-3). -/
def appendWellFormed (mode : Byte) : Bool := decide (mode ≠ 1)

/-- HANDOFF_HOLD with on byte 0 is the row HANDOFF_HOLD_OFF (Table 11-3). -/
def holdOnWellFormed (on : Byte) : Bool := decide (on ≠ 0)

/-- ACK_EVENTS carries 1 to 21 kind numbers (Table 11-3). -/
def ackWellFormed (kinds : List Byte) : Bool := decide (1 ≤ kinds.length) && decide (kinds.length ≤ 21)

/-- A pixel line comes with no chroma, or with one U and one V sample for each two luma samples (4:2:0). -/
def lineWellFormed (y u v : List Byte) : Bool :=
  decide (u.length = v.length) && (u.isEmpty || decide (2 * u.length = y.length))

/-- Whether a command is well formed. -/
def Instr.wellFormed : Instr → Bool
  | .powerOn _ => true
  | .pinReset => true
  | .resetRelease _ => true
  | .unknownCommand p message => unknownWellFormed p message
  | .getId _ => true
  | .getStatus _ => true
  | .wake _ => true
  | .wakeComplete => true
  | .sleep _ => true
  | .softReset _ => true
  | .softResetComplete => true
  | .portConfig _ _ => true
  | .portEnable _ _ => true
  | .portDisable _ _ => true
  | .getPortStatus _ _ => true
  | .calWrite _ _ => true
  | .calRead _ _ => true
  | .outputConfig _ _ => true
  | .handoffConfig _ _ => true
  | .zoomSet _ _ => true
  | .zoomRequestAppend _ _ _ _ mode => appendWellFormed mode
  | .zoomRequestReplace _ _ _ _ => true
  | .zoomCancel _ => true
  | .handoffHoldOn _ on _ => holdOnWellFormed on
  | .handoffHoldOff _ _ => true
  | .captureConfig _ _ => true
  | .motionSample _ _ _ _ => true
  | .streamStart _ => true
  | .streamStop _ => true
  | .drainEnd => true
  | .outputFence _ => true
  | .getView _ => true
  | .getHandoff _ => true
  | .eventConfig _ _ _ _ => true
  | .getEvents _ => true
  | .ackEvents _ kinds => ackWellFormed kinds
  | .getFault _ => true
  | .clearFault _ => true
  | .periodStart => true
  | .rampComplete => true
  | .holdExpired => true
  | .guardExpiry => true
  | .barExpiry _ => true
  | .prepareTimeout => true
  | .probeSkip => true
  | .blendCommit => true
  | .autoReset _ => true
  | .fsyncIssue _ => true
  | .resetPulseEnd _ => true
  | .seekWindowEnd _ => true
  | .frameStart _ _ => true
  | .pixelLine _ y u v _ => lineWellFormed y u v
  | .frameEnd _ => true
  | .fillTimeout _ => true
  | .frameDeadline _ => true
  | .probeComplete => true
  | .captureEdge _ => true
  | .composeDeadline => true
  | .compositionComplete => true
  | .emissionStart => true
  | .txDone => true

end Sys2Proof
end

