-- ==== Sys2Proof/Certificates/Slice0/Obligations.lean ====
section
/-! DEFINITION. Sys2Proof/Certificates/Slice0/Obligations.lean: the statements for the provers. Each docstring names the rules
a statement formalises. Where a statement gives the next state as one expression, everything that the expression does not
change is thereby said to be unchanged (the frame). -/

open Sys2Proof Sys2Proof.Machine

/-! ### The step, the queue and the time base -/

/-- R176: the commands reach the device in the order in which they wait; one is taken at a step, with the rest behind
it. -/
def Obligations.StepTakesTheFrontCommand : Prop :=
  ∀ (s : State) (c : Instr) (rest : List Instr),
    s.pending = c :: rest → step s = exec c { s with pending := rest }

/-- R164, R160: with no command waiting the time base stands in DORMANT and while RESET_N is low; in every other mode it
runs on by 1 µs, and the rows that then fall due wait in some order (model's choice: assumption logs 1 and 4). When each
row is due: R162, R163, R110, R111, R114, R115, R118, R122, R149, R165; a probe completes after its start and at 1,500 µs
at the latest (R89), a composition at a moment left free (R146, assumption log 3); the guards of a row that is late are the
model's (assumption logs 15 and 17). Each row is due once, and no other row is. -/
def Obligations.TickRunsTheTimeBase : Prop :=
  (∀ s : State, s.pending = [] →
    (s.dev.ctl.resetLow = true ∨ s.dev.mode = .dormant → step s = .next s) ∧
    (s.dev.ctl.resetLow = false → s.dev.mode ≠ .dormant →
      ∃ queue : List Instr,
        let ticked := { s.dev with ctl := { s.dev.ctl with timeBase := s.dev.ctl.timeBase + 1 } }
        queue.Perm (ticked.dueCommands s.freeIndex) ∧
          step s = .next { s with dev := ticked, freeIndex := s.freeIndex + 1, pending := queue })) ∧
  ∀ (d : Device) (i : Nat),
    let due := d.dueCommands i
    let start := fun k : Nat => d.sessionStart + (k + d.ctl.output.latency) * d.ctl.output.period
    let streams := d.mode = .streaming ∨ d.mode = .stopping
    (Instr.wakeComplete ∈ due ↔ d.mode = .waking ∧ d.ctl.enteredAt + 2000 ≤ d.now) ∧
    (Instr.softResetComplete ∈ due ↔ d.mode = .resetting ∧ d.ctl.enteredAt + 1000 ≤ d.now) ∧
    (∀ m,
      let q := d.port m
      (Instr.resetPulseEnd m ∈ due ↔ q.state = .resetting ∧ q.since + 1000 ≤ d.now) ∧
      (Instr.seekWindowEnd m ∈ due ↔ q.state = .seeking ∧ q.since + 5000 ≤ d.now) ∧
      (Instr.fsyncIssue m ∈ due ↔ ∃ e, q.pendingFsync = some e ∧ e.issue ≤ d.now) ∧
      (Instr.frameDeadline m ∈ due ↔ ∃ e rest, q.expectations = e :: rest ∧ e.deadline ≤ d.now) ∧
      (∀ c, q.config = some c →
        (Instr.fillTimeout m ∈ due ↔ ∃ f, q.filling = some f ∧ f.start + 2 * c.readout ≤ d.now)) ∧
      (Instr.autoReset m ∈ due ↔ d.PeriodDue ∧ q.state = .stalled ∧ q.allowance = .available ∧
        q.stallAge + 1 = d.ctl.handoff.deadLimit)) ∧
    (Instr.periodStart ∈ due ↔ d.PeriodDue) ∧
    (Instr.composeDeadline ∈ due ↔ ∃ plan rest, d.planner.plans = plan :: rest ∧ d.mode = .streaming ∧
      d.link.pending = none ∧ start plan.period - d.ctl.output.guard ≤ d.now) ∧
    (Instr.emissionStart ∈ due ↔ ∃ r, d.link.pending = some r ∧ streams ∧ d.link.sending = none ∧
      start r.period ≤ d.now) ∧
    (Instr.txDone ∈ due ↔ ∃ r, d.link.sending = some r ∧ streams ∧
      start r.period + d.ctl.output.period - 500 ≤ d.now) ∧
    (Instr.probeComplete ∈ due → ∃ c, d.probe = some c ∧ c.start < d.now) ∧
    (∀ c, d.probe = some c → c.start + 1500 ≤ d.now → Instr.probeComplete ∈ due) ∧
    (Instr.compositionComplete ∈ due → d.composing ≠ none) ∧
    due.Nodup ∧
    ∀ c ∈ due,
      c ∈ [Instr.wakeComplete, .softResetComplete, .periodStart, .composeDeadline, .emissionStart, .txDone,
        .probeComplete, .compositionComplete] ∨
      ∃ m, c ∈ [Instr.resetPulseEnd m, .seekWindowEnd m, .fsyncIssue m, .frameDeadline m, .fillTimeout m, .autoReset m]

/-! ### Messages (Chapter 11) -/

/-- R173 steps 1 to 4: a message that is no well-formed command is answered by the first step that refuses it, and changes
nothing outside its port's reply slot. -/
def Obligations.MalformedMessageIsRefused : Prop :=
  (∀ (p : CmdPort) (code : Byte) (s : State), s.dev.ctl.resetLow = false →
      exec (.unknownCommand p [code]) s = .next (s.refusedWith p .badLength)) ∧
    ∀ (p : CmdPort) (code len : Byte) (payload : List Byte) (s : State), s.dev.ctl.resetLow = false →
      (Instr.unknownCommand p (code :: len :: payload)).wellFormed = true →
      exec (.unknownCommand p (code :: len :: payload)) s =
        .next (s.refusedWith p
          (if 30 < len.toNat ∨ payload.length ≠ len.toNat then .badLength
          else if ∀ c ∈ Command.all, c.code ≠ code.toNat then .unknownCommand
          else if (s.dev.mode = .waking ∨ s.dev.mode = .resetting) ∧ code.toNat ≠ 0x01 ∧ code.toNat ≠ 0x02 then .busy
          else .badLength))

/-- R173 steps 3 and 5, Table 11-3: what a well-formed command is answered in a mode that does not take it; nothing
outside the reply slot of its port changes. -/
def Obligations.ModeTableRefusals : Prop :=
  ∀ (s : State) (i : Instr) (p : CmdPort) (c : Command), i.command? = some (p, c) → s.dev.ctl.resetLow = false →
    ((s.dev.mode = .waking ∨ s.dev.mode = .resetting) → c ≠ .getId → c ≠ .getStatus →
      exec i s = .next (s.refusedWith p .busy)) ∧
    (s.dev.mode = .dormant → c = .sleep → exec i s = .next (s.refusedWith p .ignored)) ∧
    (s.dev.mode = .dormant →
      c ∈ [Command.softReset, .portConfig, .portEnable, .portDisable, .calWrite, .outputConfig, .handoffConfig, .zoomSet,
        .zoomRequest, .zoomCancel, .handoffHold, .captureConfig, .motionSample, .streamStart, .streamStop,
        .outputFence] →
      exec i s = .next (s.refusedWith p .wrongMode)) ∧
    ((s.dev.mode = .standby ∨ s.dev.mode = .streaming ∨ s.dev.mode = .stopping) → c = .wake →
      exec i s = .next (s.refusedWith p .ignored)) ∧
    (s.dev.mode = .standby →
      c ∈ [Command.zoomRequest, .zoomCancel, .handoffHold, .motionSample, .streamStop, .outputFence] →
      exec i s = .next (s.refusedWith p .wrongMode)) ∧
    (s.dev.mode = .streaming →
      c ∈ [Command.sleep, .portConfig, .calWrite, .outputConfig, .handoffConfig, .zoomSet, .streamStart] →
      exec i s = .next (s.refusedWith p .wrongMode)) ∧
    (s.dev.mode = .stopping → c = .streamStop → exec i s = .next (s.refusedWith p .busy)) ∧
    (s.dev.mode = .stopping →
      c ∈ [Command.sleep, .portConfig, .portEnable, .portDisable, .calWrite, .outputConfig, .handoffConfig, .zoomSet,
        .zoomRequest, .zoomCancel, .handoffHold, .captureConfig, .motionSample, .streamStart, .outputFence] →
      exec i s = .next (s.refusedWith p .wrongMode))

/-- R174, R176, R171, R172: a command or an event leaves the reply slot of every port but the one it is taken on,
power-on and pin reset apart. Power-on and pin reset end the transaction under way on both buses. A SOFT_RESET taken on
one port ends those of the other, a read from Port M apart, and leaves those of its own port (assumption log 21);
nothing else ends one. A write to Port M, a repeated START and a read therefore give that write's reply, that of a
SOFT_RESET too. On SPI the rest of one so ended does nothing, so a write cut short is not taken. A whole SPI write joins
the queue as the command it spells, one of no byte does not; a read sends status, length, payload and zeros after a
turnaround byte and changes nothing else; any other first byte is ignored. On I2C the address and each byte are
acknowledged at Port M's address with RESET_N high, the write is taken at its end, and a read sends the same bytes as on
SPI up to the STOP. With no write under way, as after a reset has cut one short, a byte is not acknowledged (model's
choice: assumption log 42). How bus and queue meet is the model's (assumption log 21), and so is SPI while RESET_N is
low (assumption log 37). -/
def Obligations.RepliesStayOnTheirPort : Prop :=
  (∀ (s t : State) (i : Instr) (q : CmdPort), i.isReset = false → i.sender? ≠ some q → exec i s = .next t →
    (t.dev.host q).reply = (s.dev.host q).reply) ∧
  (∀ (s t : State) (i : Instr) (q : CmdPort), exec i s = .next t →
    let soft := fun p => i = .softReset p ∧ s.dev.ctl.resetLow = false ∧
      (s.dev.mode = .standby ∨ s.dev.mode = .streaming ∨ s.dev.mode = .stopping)
    let runsOn := q = .m ∧ ∃ left, (s.dev.host q).bus = some (.read left)
    (i.isReset = true ∨ (∃ p, soft p ∧ p ≠ q) ∧ ¬ runsOn → (t.dev.host q).bus = none) ∧
    (i.isReset = false → (∀ p, soft p → p = q ∨ runsOn) → (t.dev.host q).bus = (s.dev.host q).bus)) ∧
  (∀ (s : State) (address : Nat) (message : List Byte), address = (if s.dev.ctl.addrHigh then 0x2D else 0x2C) →
    s.dev.ctl.resetLow = false → s.pending = [] → (s.dev.host .m).bus = none → message ≠ [] →
    let written := message.foldl (fun x c => (x.i2cWriteByte c).1) (s.i2cStart address false).1
    let restarted := (written.i2cStart address true).1
    (∀ v, step restarted = .next v →
      let r := (v.dev.host .m).reply
      let sent := [BitVec.ofNat 8 r.status.code, BitVec.ofNat 8 r.payload.length] ++ r.payload
      ∀ n,
        let read := (fun x : State => x.i2cReadByte.1)^[n] v
        read.i2cReadByte.2 = some (sent[n]?.getD 0) ∧ read.i2cStop.dev = v.dev.setBus .m none) ∧
    (message = [0x05, 0x00] → (s.dev.mode = .standby ∨ s.dev.mode = .streaming ∨ s.dev.mode = .stopping) →
      ∃ v, step restarted = .next v ∧ v.dev.mode = .resetting ∧
        (v.dev.host .m).reply = { status := .ok, payload := [] })) ∧
  (∀ (s : State) (b : Byte), (s.dev.host .a).bus = none → s.spiClock b = (s, none) ∧ s.spiDeselect = s) ∧
  (∀ (s : State) (kind turn : Byte) (rest : List Byte),
    let idle := s.dev.setBus .a none
    let r := (s.dev.host .a).reply
    let sent := [BitVec.ofNat 8 r.status.code, BitVec.ofNat 8 r.payload.length] ++ r.payload
    let quiet : List (Option Byte) := List.replicate (rest.length + 1) none
    (s.spiTransaction (0x01 :: rest) =
      ({ s with dev := idle, pending := s.pending ++ if rest = [] then [] else [decodeMessage .a rest] }, quiet)) ∧
    (s.spiTransaction (0x02 :: turn :: rest) =
      ({ s with dev := idle }, none :: none :: (List.range rest.length).map fun i => some (sent[i]?.getD 0))) ∧
    (kind ≠ 0x01 → kind ≠ 0x02 → s.spiTransaction (kind :: rest) = ({ s with dev := idle }, quiet))) ∧
  ∀ (s : State) (address : Nat) (message : List Byte) (b : Byte),
    let own := address = (if s.dev.ctl.addrHigh then 0x2D else 0x2C) ∧ s.dev.ctl.resetLow = false
    let r := (s.dev.host .m).reply
    let sent := [BitVec.ofNat 8 r.status.code, BitVec.ofNat 8 r.payload.length] ++ r.payload
    ((s.dev.host .m).bus = none → own →
      (s.i2cStart address false).2 = true ∧
      (message.foldl (fun x c => (x.i2cWriteByte c).1) (s.i2cStart address false).1).i2cStop =
        { s with pending := s.pending ++ if message = [] then [] else [decodeMessage .m message] } ∧
      (s.i2cStart address true).2 = true ∧
      ∀ n,
        let read := (fun x : State => x.i2cReadByte.1)^[n] (s.i2cStart address true).1
        read.i2cReadByte.2 = some (sent[n]?.getD 0) ∧ read.i2cStop = s) ∧
    (¬ own → ∀ read, (s.i2cStart address read).2 = false ∧ ((s.i2cStart address read).1.dev.host .m).bus = none) ∧
    (∀ taken, (s.dev.host .m).bus = some (.write taken) →
      s.i2cWriteByte b = ({ s with dev := s.dev.setBus .m (some (.write (taken ++ [b]))) }, true)) ∧
    ((s.dev.host .m).bus = none → s.i2cWriteByte b = (s, false) ∧ s.i2cReadByte = (s, none) ∧ s.i2cStop = s)

/-- R177, R161, R175, R139: GET_ID and GET_STATUS are answered in every mode. GET_ID gives the vendor code, the part code
and the revision. GET_STATUS reports its eight items in their order, each at its width, 158 bytes with twelve slot records,
and sets this port's copy of the reset cause to NONE, the other port's left. The numbers of the reset causes follow the text
of R161 (model's reading: assumption log 13), and a flag is 1 for yes and 0 for no (model's choice: assumption log 40). -/
def Obligations.IdentityAndStatusAreReported : Prop :=
  ∀ (p : CmdPort) (s : State), s.dev.ctl.resetLow = false →
    exec (.getId p) s = .next (s.answered p { status := .ok, payload := [0x48, 0x34, 0x5A, 0x02] } s.dev) ∧
      exec (.getStatus p) s =
        .next (s.answered p { status := .ok, payload := s.dev.statusPayload p } (s.dev.setCause p .cleared)) ∧
      (s.dev.statusPayload p).take 8 =
        [BitVec.ofNat 8 s.dev.mode.number, BitVec.ofNat 8 (s.dev.host p).cause.number] ++ bytesLE 6 s.dev.now ∧
      (s.dev.slots.length = 12 → (s.dev.statusPayload p).length = 158) ∧
      (let d := s.dev
      let flag := fun b : Bool => if b then [(1 : Byte)] else [0]
      let opt := fun (width : Nat) (x : Option (List Byte)) => match x with
        | some bytes => (1 : Byte) :: bytes
        | none => List.replicate (width + 1) 0
      d.statusPayload p =
        bytesLE 1 d.mode.number ++ bytesLE 1 (d.host p).cause.number ++ bytesLE 6 d.now ++
          opt 6 (d.ctl.session.map fun x => bytesLE 6 x.start) ++ opt 4 (d.ctl.session.map fun x => bytesLE 4 x.current) ++
          bytesLE 1 d.motion.length ++
          opt 12 (d.motion.getLast?.map fun x =>
            signedLE 2 x.ex ++ signedLE 2 x.ey ++ bytesLE 2 x.q ++ bytesLE 6 x.stamp) ++
          bytesLE 2 ((d.motion.getLast?.map MotionSample.q).getD 0) ++ bytesLE 1 d.planner.captureSelect.number ++
          flag d.planner.markPending ++ bytesLE 4 d.composePoint ++
          (PortId.all.flatMap fun m => bytesLE 1 (((d.port m).config.map PortConfig.quota).getD 0) ++
            bytesLE 1 (d.slots.filter fun x => x.owner = some m).length) ++
          d.slots.flatMap fun x => bytesLE 1 x.state.number ++ opt 1 (x.owner.map fun m => bytesLE 1 m.toNat) ++
            opt 4 (x.period.map (bytesLE 4)) ++ bytesLE 1 x.useCount) ∧
      [Mode.dormant, .waking, .standby, .streaming, .stopping, .resetting].map Mode.number = List.range 6 ∧
      [ResetCause.powerOn, .pin, .soft, .cleared].map ResetCause.number = List.range 4 ∧
      [CaptureSelect.none, .rising, .falling, .both].map CaptureSelect.number = List.range 4 ∧
      [SlotState.free, .filling, .ready, .held].map SlotState.number = List.range 4 ∧
      (∀ q, ((s.dev.setCause p .cleared).host q).cause = if q = p then .cleared else (s.dev.host q).cause)

/-- R125, R9, R155, R178, R52, R82, R183, R186, R175: in DORMANT, STANDBY, STREAMING and STOPPING a query is answered OK
with its report, or BAD_PARAM when its byte names no port, and changes nothing else. Each report is laid out item by item in
its rule's order at the widths of R175; GET_EVENTS lists the pending records URGENT first, each group in ascending kind
number, at most 18 of 14 bytes. Which items stand behind one presence byte, that the pending outcome is one byte, and the
numbers of the probe state, IDLE 0 and IN_FLIGHT 1, and of the residual's accepted field are the model's (assumption logs
34, 35 and 13), and so is a flag as 1 for yes and 0 for no (assumption log 40). -/
def Obligations.QueriesChangeOnlyTheReply : Prop :=
  (∀ (p : CmdPort) (s : State), s.dev.ctl.resetLow = false → s.dev.mode ≠ .waking → s.dev.mode ≠ .resetting →
    (∀ m : PortId, exec (.getPortStatus p (BitVec.ofNat 8 m.toNat)) s =
      .next (s.answered p { status := .ok, payload := s.dev.portStatusPayload m } s.dev)) ∧
    (∀ m : PortId, exec (.calRead p (BitVec.ofNat 8 m.toNat)) s =
      .next (s.answered p { status := .ok, payload := s.dev.calPayload m } s.dev)) ∧
    (∀ port : Byte, 3 < port.toNat → exec (.getPortStatus p port) s = .next (s.refusedWith p .badParam) ∧
      exec (.calRead p port) s = .next (s.refusedWith p .badParam)) ∧
    exec (.getView p) s = .next (s.answered p { status := .ok, payload := s.dev.viewPayload } s.dev) ∧
    exec (.getHandoff p) s = .next (s.answered p { status := .ok, payload := s.dev.handoffPayload } s.dev) ∧
    exec (.getEvents p) s = .next (s.answered p { status := .ok, payload := s.dev.eventsPayload p } s.dev) ∧
    exec (.getFault p) s = .next (s.answered p { status := .ok, payload := s.dev.events.fault.bytes } s.dev)) ∧
  (∀ (d : Device) (m : PortId) (p : CmdPort),
    let flag := fun b : Bool => if b then [(1 : Byte)] else [0]
    let byte := fun n : Nat => [BitVec.ofNat 8 n]
    let opt := fun (width : Nat) (x : Option (List Byte)) => match x with
      | some bytes => (1 : Byte) :: bytes
      | none => List.replicate (width + 1) 0
    let lanes := fun l : Lanes => match l with | .four => 4 | .two => 2 | .one => 1
    let q := d.port m
    let cal := d.calOf m
    (d.portStatusPayload m =
      opt 20 (q.config.map fun c =>
        byte m.toNat ++ bytesLE 2 c.width ++ bytesLE 2 c.height ++ bytesLE 4 c.readout ++ bytesLE 4 c.exposure ++
          bytesLE 4 c.deadline ++ byte c.quota ++ byte (match c.policy with | .warm => 0 | .cold => 1) ++ byte c.divisor) ++
        byte q.state.number ++ byte ((q.lanes.map lanes).getD 0) ++
        (if q.state = .seeking then
          [(1 : Byte)] ++ byte (q.window / 3 + 1) ++
            byte (if q.window % 3 = 0 then 4 else if q.window % 3 = 1 then 2 else 1)
        else [0, 0, 0]) ++
        bytesLE 4 q.newestExposure ++ bytesLE 2 q.frameCounter ++ byte q.expectations.length ++
        opt 10 (q.expectations.head?.map fun e => bytesLE 4 e.period ++ bytesLE 6 e.deadline) ++
        byte q.badPeriods ++ byte q.goodRun ++ byte q.stallAge ++
        byte (match q.allowance with | .available => 0 | .spent => 1) ++
        bytesLE 2 q.good ++ bytesLE 2 q.missed ++ bytesLE 2 q.faulted ++ bytesLE 2 q.dropped ++ bytesLE 2 q.skips) ∧
    (d.calPayload m =
      byte m.toNat ++ flag cal.written ++ bytesLE 2 cal.base ++ bytesLE 2 cal.trim ++ bytesLE 2 cal.cx ++
        bytesLE 2 cal.cy ++ byte cal.margin ++ bytesLE 2 cal.lower ++ bytesLE 2 (d.downOf m) ++ bytesLE 2 (d.upOf m) ++
        bytesLE 2 d.zmin) ∧
    (d.viewPayload =
      opt 53 (d.link.lastTrailer.map Trailer.bytes) ++
        opt 5 (d.link.sending.map fun r =>
          byte (match r.kind with | .fresh => 0 | .repeated => 1 | .grey => 2) ++ bytesLE 4 r.period) ++
        opt 5 (d.link.pending.map fun r =>
          bytesLE 4 r.period ++ byte (match r.outcome with | .composing _ => 0 | .skipped _ => 1)) ++
        (d.buffers.flatMap fun b => byte b.state.number ++ opt 4 (b.period.map (bytesLE 4))) ++
        opt 4 (d.composing.map fun c => bytesLE 4 c.period) ++ byte d.link.nonFresh ++ flag d.link.frozenReported ++
        opt 4 (d.link.fence.map (bytesLE 4))) ∧
    (d.handoffPayload =
      bytesLE 2 d.planner.nominal ++
        opt 7 (d.planner.ramp.map fun r =>
          byte r.id ++ bytesLE 2 r.start ++ bytesLE 2 r.target ++ byte r.length ++ byte r.step) ++
        byte d.planner.queue.length ++ opt 1 (d.planner.queue.head?.map fun e => byte e.id) ++
        opt 1 (d.planner.state.map fun st => byte st.number) ++ opt 1 (d.activePort.map fun a => byte a.toNat) ++
        (PortId.all.flatMap fun n => byte (d.role n).number ++ byte (d.planner.bars.get n)) ++
        bytesLE 2 d.planner.applied ++
        opt 11 (d.planner.context.map fun c =>
          byte c.dest.toNat ++ byte (match c.direction with | .up => 0 | .down => 1) ++ byte c.prepared ++
            byte c.elapsed ++ byte c.deferral ++
            opt 4 (c.residual.map fun r => signedLE 1 r.rx ++ signedLE 1 r.ry ++ byte r.score ++
              byte (match r.accepted with | .yes => 0 | .no => 1 | .skipped => 2)) ++ byte c.step) ++
        flag d.probe.isSome ++ byte d.planner.hold ++ byte d.planner.guard ++
        opt 8 (d.planner.lastChange.map fun c =>
          opt 1 (c.old.map fun o => byte o.toNat) ++ byte c.new.toNat ++
            byte (match c.reason with | .blend => 0 | .forced => 1 | .fallback => 2) ++ bytesLE 4 c.period) ++
        byte (if d.probe.isSome then 1 else 0) ++
        opt 20 (d.probe.map fun c =>
          byte c.activePort.toNat ++ byte c.destPort.toNat ++ byte c.activeSlot ++ byte c.destSlot ++ bytesLE 4 c.period ++
            bytesLE 2 c.zoom ++ signedLE 2 c.ex ++ signedLE 2 c.ey ++ bytesLE 6 c.start) ++
        (match d.probeResult with
          | none => List.replicate 20 0
          | some r => [(1 : Byte)] ++ byte r.activePort.toNat ++ byte r.destPort.toNat ++ bytesLE 4 r.period ++
            signedLE 1 r.rx ++ signedLE 1 r.ry ++ byte r.bestCost ++ byte r.contrast ++ byte r.score ++
            flag r.accepted ++ flag r.taken ++ bytesLE 6 r.time)) ∧
    (let e := d.eventSet p
      let urgent := e.records.filter fun r => r.pending && r.urgent
      let normal := e.records.filter fun r => r.pending && !r.urgent
      let listed := (urgent ++ normal).take 18
      let record := fun r : EventRecord =>
        let x := r.detail.getD { port := none, requestId := none, period := none, reason := none, zooms := none }
        byte r.kind.number ++ byte r.count ++
          byte ((if x.port.isSome then 1 else 0) + (if x.requestId.isSome then 2 else 0) +
            (if x.period.isSome then 4 else 0) + (if x.reason.isSome then 8 else 0) +
            (if x.zooms.isSome then 16 else 0)) ++
          byte ((x.port.map PortId.toNat).getD 0) ++ byte (x.requestId.getD 0) ++ bytesLE 4 (x.period.getD 0) ++
          byte (x.reason.getD 0) ++ bytesLE 2 ((x.zooms.map Prod.fst).getD 0) ++
          bytesLE 2 ((x.zooms.map Prod.snd).getD 0)
      d.eventsPayload p =
          byte (urgent ++ normal).length ++
            byte ((if e.urgentMaster then 1 else 0) + (if e.normalMaster then 2 else 0) +
              (if d.attention p then 4 else 0)) ++
            byte listed.length ++ listed.flatMap record ∧
        (∀ r : EventRecord, (record r).length = 14) ∧
        (e.records.map EventRecord.kind = EventKind.all →
          urgent.Pairwise (fun x y => x.kind.number < y.kind.number) ∧
            normal.Pairwise (fun x y => x.kind.number < y.kind.number) ∧ (d.eventsPayload p).length ≤ 255)) ∧
    d.events.fault.bytes =
      (let c := d.events.fault.captured
      flag c.isSome ++ byte ((c.map fun x => x.kind.number).getD 0) ++
        opt 1 ((c.bind CapturedFault.port).map fun n => byte n.toNat) ++
        opt 4 ((c.bind CapturedFault.period).map (bytesLE 4)) ++ bytesLE 6 ((c.map CapturedFault.time).getD 0) ++
        opt 1 ((c.bind CapturedFault.reason).map byte) ++ byte d.events.fault.overflow)) ∧
  [PortState.off, .resetting, .seeking, .linked, .stalled, .dead].map PortState.number = List.range 6 ∧
  [BufferState.free, .composing, .complete, .sending, .last].map BufferState.number = List.range 5 ∧
  [HandoffState.steady, .prepare, .probe, .blend, .noSource].map HandoffState.number = List.range 5 ∧
  [Role.active, .dest, .warm, .cold, .none].map Role.number = List.range 5 ∧
  EventKind.all.map EventKind.number = List.range 21

/-! ### Power, resets and modes (Chapter 10) -/

/-- R160, R161 and the reset clauses of every chapter: the state right after power-on. Frame memory with nothing listed,
the free index 0 and the exposure 0 and focus no of a FREE slot are the model's (assumption logs 8, 29 and 23). -/
def Obligations.PowerOnStateOfEveryBlock : Prop :=
  State.reset.dev.PowerOnValues .powerOn ∧ State.reset.mem = [] ∧ State.reset.freeIndex = 0 ∧ State.reset.pending = []

/-- R160, R161, R172: POWER_ON and PIN_RESET put every block at its power-on values from any state, with the reset cause
of each; RESET_RELEASE samples ADDR and leaves everything else. That power-on empties frame memory, that a pin reset
keeps it, that POWER_ON keeps the level of RESET_N and that a RESET_RELEASE with RESET_N already high changes nothing, ADDR
not sampled, is the model's choice (assumption log 9). -/
def Obligations.PowerOnPinResetAndRelease : Prop :=
  ∀ (s : State) (addr : Bool),
    (∃ t, exec (.powerOn addr) s = .next t ∧ t.dev.PowerOnValues .powerOn ∧ t.dev.ctl.addrHigh = addr ∧
      t.dev.ctl.resetLow = s.dev.ctl.resetLow ∧ t.mem = [] ∧ t.freeIndex = s.freeIndex ∧ t.pending = s.pending) ∧
    (∃ t, exec .pinReset s = .next t ∧ t.dev.PowerOnValues .pin ∧ t.dev.ctl.addrHigh = s.dev.ctl.addrHigh ∧
      t.dev.ctl.resetLow = true ∧ t.mem = s.mem ∧ t.freeIndex = s.freeIndex ∧ t.pending = s.pending) ∧
    (s.dev.ctl.resetLow = true → exec (.resetRelease addr) s =
      .next { s with dev := { s.dev with ctl := { s.dev.ctl with resetLow := false, addrHigh := addr } } }) ∧
    (s.dev.ctl.resetLow = false → exec (.resetRelease addr) s = .next s)

/-- R160: while RESET_N is low after a pin reset the device stays in its power-on state whatever arrives: no command, no
module, pin or timed event changes anything, the time base stands, every MRST line is asserted and neither attention line
is. -/
def Obligations.NothingActsWhileResetIsLow : Prop :=
  ∀ (s : State) (addr : Bool), s.dev = Device.poweredOn .pin true addr →
    (∀ i : Instr, i.isReset = false → (∀ level, i ≠ .resetRelease level) → exec i s = .next s) ∧
      (s.pending = [] → step s = .next s) ∧ (∀ m, s.dev.mrstAsserted m = true) ∧ ∀ p, s.dev.attention p = false

/-- R162, R107, R135, R159: WAKE in DORMANT enters WAKING, the time base running on from the value it holds. SLEEP in
STANDBY enters DORMANT; every port goes OFF, its lane count 0, its pending FSYNC, its expectation queue and a frame
being filled ended, and its unheld slots freed. MODE_CHANGED is raised at each. Configurations, calibration records,
zooms, capture selection, event settings, counters, the time base and memory are as they were. -/
def Obligations.WakeAndSleepChangeTheMode : Prop :=
  ∀ (p : CmdPort) (s : State), s.dev.ctl.resetLow = false →
    (s.dev.mode = .dormant →
      exec (.wake p) s = .next (s.answered p { status := .ok, payload := [] }
        (Device.raise { s.dev with ctl := { s.dev.ctl with mode := .waking, enteredAt := s.dev.now } } .modeChanged
          (EventDetail.ofPeriod s.dev.currentPeriod (some 1))))) ∧
    (s.dev.mode = .standby →
      exec (.sleep p) s = .next (s.answered p { status := .ok, payload := [] }
        (Device.raise
          { s.dev with
            ctl := { s.dev.ctl with mode := .dormant }
            ports := s.dev.ports.map fun q =>
              { q with state := .off, lanes := none, pendingFsync := none, expectations := [], filling := none }
            slots := s.dev.slots.map fun x => if x.owner.isSome && x.unheld then Slot.freed x.id else x }
          .modeChanged (EventDetail.ofPeriod s.dev.currentPeriod (some 0)))))

/-- R162, R163, R164: WAKE_COMPLETE 2,000 µs after the entry to WAKING, and SOFT_RESET_COMPLETE 1,000 µs after the entry
to RESETTING, enter STANDBY with the time base set to 0 and raise MODE_CHANGED; before that, and in any other mode, they
change nothing (model's choice: assumption log 2). -/
def Obligations.TimedEntriesToStandby : Prop :=
  ∀ s : State,
    let standby : Device := { s.dev with ctl := { s.dev.ctl with mode := .standby, timeBase := 0, enteredAt := 0 } }
    let entered := s.withDevice (standby.raise .modeChanged (EventDetail.ofPeriod s.dev.currentPeriod (some 2)))
    exec .wakeComplete s =
        .next (if s.dev.mode = .waking ∧ s.dev.ctl.enteredAt + 2000 ≤ s.dev.now then entered else s) ∧
      exec .softResetComplete s =
        .next (if s.dev.mode = .resetting ∧ s.dev.ctl.enteredAt + 1000 ≤ s.dev.now then entered else s)

/-- R163, R161, R174, R182, R4: SOFT_RESET in STANDBY, STREAMING or STOPPING is answered OK and enters RESETTING: every
block takes its reset values, calibration records, the other reply slot, memory and the running time base are kept, both
reset causes become SOFT, and of the event records only MODE_CHANGED is pending, with count 1 and no period (model's
reading: assumption log 14). The transaction under way on the other bus is ended, a read from Port M apart, and that on the
sender's own bus runs on (model's reading: assumption log 21). When SOFT_RESET_COMPLETE is then taken 1,000 µs later,
STANDBY is entered at time 0 and MODE_CHANGED is pending with count 2, and nothing else. -/
def Obligations.SoftResetValues : Prop :=
  ∀ (p : CmdPort) (s : State), s.dev.ctl.resetLow = false →
    (s.dev.mode = .standby ∨ s.dev.mode = .streaming ∨ s.dev.mode = .stopping) →
    ∃ t, exec (.softReset p) s = .next t ∧ t.mem = s.mem ∧ t.freeIndex = s.freeIndex ∧ t.pending = s.pending ∧
      t.dev.BlocksReset ∧ t.dev.mode = .resetting ∧ t.dev.now = s.dev.now ∧ t.dev.ctl.enteredAt = s.dev.now ∧
      t.dev.ctl.addrHigh = s.dev.ctl.addrHigh ∧ t.dev.ctl.resetLow = false ∧ t.dev.cal = s.dev.cal ∧
      (t.dev.host p).reply = { status := .ok, payload := [] } ∧
      (∀ q,
        let runsOn := q = p ∨ q = .m ∧ ∃ left, (s.dev.host q).bus = some (.read left)
        (t.dev.host q).cause = .soft ∧ (runsOn → (t.dev.host q).bus = (s.dev.host q).bus) ∧
          (¬ runsOn → (t.dev.host q).bus = none) ∧ (q ≠ p → (t.dev.host q).reply = (s.dev.host q).reply)) ∧
      (∀ q, (t.dev.eventSet q).records.map EventRecord.kind = EventKind.all ∧
        (t.dev.eventSet q).urgentMaster = true ∧ (t.dev.eventSet q).normalMaster = false ∧
        ∀ r ∈ (t.dev.eventSet q).records,
          r.enabled = r.kind.isFault ∧ r.urgent = r.kind.isFault ∧
            if r.kind = .modeChanged then
              r.pending = true ∧ r.count = 1 ∧ r.detail = some (EventDetail.ofPeriod none (some 5))
            else r.pending = false ∧ r.count = 0 ∧ r.detail = none) ∧
      ∀ u v, u.dev = { t.dev with ctl := { t.dev.ctl with timeBase := t.dev.ctl.enteredAt + 1000 } } →
        exec .softResetComplete u = .next v →
        v.dev.mode = .standby ∧ v.dev.now = 0 ∧ ∀ q, ∀ r ∈ (v.dev.eventSet q).records,
          if r.kind = .modeChanged then
            r.pending = true ∧ r.count = 2 ∧ r.detail = some (EventDetail.ofPeriod none (some 5))
          else r.pending = false ∧ r.count = 0

/-- R167, Tables 10-2 and 10-3: OUTPUT_CONFIG and HANDOFF_CONFIG in STANDBY are refused BAD_PARAM with nothing changed
unless every field lies in its range, and otherwise set the whole configuration. -/
def Obligations.ConfigurationsAreCheckedAndSet : Prop :=
  ∀ (p : CmdPort) (o : OutputFields) (h : HandoffFields) (s : State), s.dev.ctl.resetLow = false →
    s.dev.mode = .standby →
    exec (.outputConfig p o) s = .next
      (if 640 ≤ o.width.toNat ∧ o.width.toNat ≤ 3840 ∧ o.width.toNat % 2 = 0 ∧ 360 ≤ o.height.toNat ∧
          o.height.toNat ≤ 2160 ∧ o.height.toNat % 2 = 0 ∧ 8333 ≤ o.period.toNat ∧ o.period.toNat ≤ 66667 ∧
          1 ≤ o.latency.toNat ∧ o.latency.toNat ≤ 3 ∧ 1000 ≤ o.guard.toNat ∧ o.guard.toNat ≤ o.period.toNat / 2 ∧
          100 ≤ o.exposureRef.toNat ∧ o.exposureRef.toNat ≤ o.period.toNat then
        s.answered p { status := .ok, payload := [] }
          { s.dev with ctl := { s.dev.ctl with output :=
            { size := some (o.width.toNat, o.height.toNat), period := o.period.toNat, latency := o.latency.toNat,
              guard := o.guard.toNat, exposureRef := o.exposureRef.toNat } } }
      else s.refusedWith p .badParam) ∧
    exec (.handoffConfig p h) s = .next
      (if h.hysteresis.toNat ≤ 100 ∧ 1 ≤ h.blendLength.toNat ∧ h.blendLength.toNat ≤ 16 ∧ 1 ≤ h.prepareLimit.toNat ∧
          h.prepareLimit.toNat ≤ 60 ∧ 1 ≤ h.deferralLimit.toNat ∧ h.deferralLimit.toNat ≤ 60 ∧
          1 ≤ h.stallLimit.toNat ∧ h.stallLimit.toNat ≤ 15 ∧ 5 ≤ h.deadLimit.toNat ∧ 1 ≤ h.freezeLimit.toNat ∧
          h.guardLength.toNat ≤ 30 ∧ 1000 ≤ h.staleLimit.toNat ∧ h.staleLimit.toNat ≤ 100000 then
        s.answered p { status := .ok, payload := [] }
          { s.dev with ctl := { s.dev.ctl with handoff :=
            { hysteresis := h.hysteresis.toNat, blendLength := h.blendLength.toNat,
              prepareLimit := h.prepareLimit.toNat, deferralLimit := h.deferralLimit.toNat,
              probeThreshold := h.probeThreshold.toNat, motionLimit := h.motionLimit.toNat,
              backoff := h.backoff.toNat, stallLimit := h.stallLimit.toNat, deadLimit := h.deadLimit.toNat,
              freezeLimit := h.freezeLimit.toNat, guardLength := h.guardLength.toNat,
              staleLimit := h.staleLimit.toNat } } }
      else s.refusedWith p .badParam)

/-! ### Calibration and geometry (Chapters 1 and 2) -/

/-- R6, R7, R3: the checks of CAL_WRITE in STANDBY, in their order, and the write of one port's record, which leaves the
other three as they were. -/
def Obligations.CalWriteIsCheckedAndLocks : Prop :=
  ∀ (p : CmdPort) (f : CalFields) (s : State), s.dev.ctl.resetLow = false → s.dev.mode = .standby →
    (3 < f.port.toNat → exec (.calWrite p f) s = .next (s.refusedWith p .badParam)) ∧
    ∀ m : PortId, f.port.toNat = m.toNat →
      ((s.dev.calOf m).written = true → exec (.calWrite p f) s = .next (s.refusedWith p .locked)) ∧
      ((s.dev.calOf m).written = false → (s.dev.port m).config = none →
        exec (.calWrite p f) s = .next (s.refusedWith p .badParam)) ∧
      ∀ c, (s.dev.calOf m).written = false → (s.dev.port m).config = some c →
        if 25 ≤ f.base.toNat ∧ f.base.toNat ≤ 5000 ∧ 970 ≤ f.trim.toNat ∧ f.trim.toNat ≤ 1030 ∧ f.margin.toNat ≤ 200 ∧
            f.cx.toNat < c.width ∧ f.cy.toNat < c.height then
          ∃ cal, exec (.calWrite p f) s =
              .next (s.answered p { status := .ok, payload := [] } { s.dev with cal := cal }) ∧
            cal.get m =
              { written := true, base := f.base.toNat, trim := f.trim.toNat, cx := f.cx.toNat, cy := f.cy.toNat,
                margin := f.margin.toNat } ∧
            ∀ n, n ≠ m → cal.get n = s.dev.calOf n
        else exec (.calWrite p f) s = .next (s.refusedWith p .badParam)

/-- R3, R4, R13, R104, R167: a written calibration record keeps its values through everything but power-on and pin
reset; the output configuration, the hand-off configuration and each port's configuration change only by the command
that sets them and the resets. -/
def Obligations.SettingsAreKept : Prop :=
  ∀ (s t : State) (i : Instr), i.isReset = false → exec i s = .next t →
    (∀ m, (s.dev.calOf m).written = true → t.dev.calOf m = s.dev.calOf m) ∧
      ((∀ p, i ≠ .softReset p) →
        ((∀ p f, i ≠ .outputConfig p f) → t.dev.ctl.output = s.dev.ctl.output) ∧
        ((∀ p f, i ≠ .handoffConfig p f) → t.dev.ctl.handoff = s.dev.ctl.handoff) ∧
        ((∀ p f, i ≠ .portConfig p f) → ∀ m, (t.dev.port m).config = (s.dev.port m).config))

/-- R18, Table 2-1: each rounding word yields the integer its definition names, for every rational n / d. -/
def Obligations.RoundingWordsAreExact : Prop :=
  ∀ (n : Int) (d : Nat), 0 < d →
    (floorDiv n d * d ≤ n ∧ n < (floorDiv n d + 1) * d) ∧
    ((ceilDiv n d - 1) * d < n ∧ n ≤ ceilDiv n d * d) ∧
    ((0 ≤ n → 0 ≤ truncDiv n d ∧ truncDiv n d * d ≤ n ∧ n < (truncDiv n d + 1) * d) ∧
      (n ≤ 0 → truncDiv n d ≤ 0 ∧ n ≤ truncDiv n d * d ∧ (truncDiv n d - 1) * d < n)) ∧
    (Even (evenFloorDiv n d) ∧ evenFloorDiv n d * d ≤ n ∧ n < (evenFloorDiv n d + 2) * d) ∧
    (Even (evenCeilDiv n d) ∧ (evenCeilDiv n d - 2) * d < n ∧ n ≤ evenCeilDiv n d * d) ∧
    (Even (evenTowardZeroDiv n d) ∧
      (0 ≤ n → 0 ≤ evenTowardZeroDiv n d ∧ evenTowardZeroDiv n d * d ≤ n ∧ n < (evenTowardZeroDiv n d + 2) * d) ∧
      (n ≤ 0 → evenTowardZeroDiv n d ≤ 0 ∧ n ≤ evenTowardZeroDiv n d * d ∧ (evenTowardZeroDiv n d - 2) * d < n))

/-- R11, R12, R14: the lower bound is the least integer not below b × (1000 + g) / 1000; for records in range it lies in
25..6000, and the thresholds stand in order above it, apart as the rule says. Zmin is 50 with no record written,
otherwise the larger of 50 and the smallest lower bound among the written records; a zoom is clamped into Zmin..10000.
-/
def Obligations.BoundsThresholdsAndLimits : Prop :=
  (∀ (c : Calibration) (h : Nat), 25 ≤ c.base → c.base ≤ 5000 → c.margin ≤ 200 → h ≤ 100 →
      (c.base * (1000 + c.margin) ≤ c.lower * 1000 ∧ c.lower * 1000 < c.base * (1000 + c.margin) + 1000) ∧
      (c.lower * (1000 + h) ≤ c.down h * 1000 ∧ c.down h * 1000 < c.lower * (1000 + h) + 1000) ∧
      (c.lower * (1000 + 2 * h) ≤ c.up h * 1000 ∧ c.up h * 1000 < c.lower * (1000 + 2 * h) + 1000) ∧
      25 ≤ c.lower ∧ c.lower ≤ 6000 ∧ c.lower ≤ c.down h ∧ c.down h ≤ c.up h ∧ c.up h ≤ 7200 ∧
      (1 ≤ h → c.lower < c.down h) ∧ (1000 ≤ c.lower * h → c.down h < c.up h) ∧
      (h = 0 → c.down h = c.lower ∧ c.up h = c.lower)) ∧
  ∀ (d : Device) (z : Nat),
    ((∀ m, (d.calOf m).written = false) → d.zmin = 50) ∧
    (∀ m, (d.calOf m).written = true → (∀ n, (d.calOf n).written = true → (d.calOf m).lower ≤ (d.calOf n).lower) →
      d.zmin = max 50 (d.calOf m).lower) ∧
    (d.zmin ≤ 10000 → d.zmin ≤ d.clampZoom z ∧ d.clampZoom z ≤ 10000 ∧
      (d.zmin ≤ z → z ≤ 10000 → d.clampZoom z = z) ∧ (z ≤ d.zmin → d.clampZoom z = d.zmin) ∧
      (10000 ≤ z → d.clampZoom z = 10000))

/-- R15, R16: who is a candidate and who a fallback candidate; the preferred port for a zoom among a set of ports; and the
choices of a preferred candidate and of a fallback, for the nominal zoom. -/
def Obligations.PreferredPortIsTheRules : Prop :=
  ∀ (d : Device) (keep : PortId → Bool) (z : Nat),
    let lower := fun n => (d.calOf n).lower
    let base := fun n => (d.calOf n).base
    (∀ m, (d.isFallbackCandidate m = true ↔ (d.port m).state = .linked ∧ (d.calOf m).written = true) ∧
      (d.isCandidate m = true ↔
        (d.port m).state = .linked ∧ (d.calOf m).written = true ∧ d.planner.bars.get m = 0)) ∧
    d.preferredCandidate = d.preferred (portsWhere d.isCandidate) d.planner.nominal ∧
    d.fallbackChoice = d.preferred (portsWhere d.isFallbackCandidate) d.planner.nominal ∧
    (d.preferred (portsWhere keep) z = none ↔ ∀ n, keep n = false) ∧
    ∀ m, d.preferred (portsWhere keep) z = some m → keep m = true ∧
      ((∃ n, keep n = true ∧ lower n ≤ z) → lower m ≤ z ∧ ∀ n, keep n = true → lower n ≤ z → n ≠ m →
        base n < base m ∨ base n = base m ∧ (lower m < lower n ∨ lower m = lower n ∧ m.toNat < n.toNat)) ∧
      ((∀ n, keep n = true → z < lower n) → ∀ n, keep n = true → n ≠ m →
        lower m < lower n ∨ lower m = lower n ∧ (base n < base m ∨ base n = base m ∧ m.toNat < n.toNat))

/-- R21 to R27: with every input in its range of Table 2-2, whatever the shift, the residual and the centre, the window has
the width, the height and the origin of R21 to R26, lies in the module frame, its origin and size are even, and it is never
empty; EDGE is set exactly when the unclamped origin lies outside the places the window can take, FLOOR exactly when the
width for the zoom is below the minimum width. -/
def Obligations.WindowLiesInTheFrame : Prop :=
  ∀ i : WindowInputs,
    640 ≤ i.wm → i.wm ≤ 4096 → i.wm % 2 = 0 → 480 ≤ i.hm → i.hm ≤ 3072 → i.hm % 2 = 0 →
    640 ≤ i.wo → i.wo ≤ 3840 → i.wo % 2 = 0 → 360 ≤ i.ho → i.ho ≤ 2160 → i.ho % 2 = 0 →
    25 ≤ i.base → i.base ≤ 5000 → 970 ≤ i.trim → i.trim ≤ 1030 → 50 ≤ i.zoom → i.zoom ≤ 10000 →
    let a := i.answer
    let x := unclampedOrigin i.cx a.window.w (moduleShift i.ex a.window.w i.wo) i.rx
    let y := unclampedOrigin i.cy a.window.h (moduleShift i.ey a.window.h i.ho) i.ry
    let least := max 64 (2 * ((i.wo + 31) / 32))
    let zoomed := min i.wm (2 * (i.wm * i.base * 1000 / (2 * (i.zoom * i.trim))))
    let width := max least zoomed
    let height := 2 * (width * i.ho / (2 * i.wo))
    let shift := fun (e : Int) (size out : Nat) => 2 * ((e * size).tdiv out).tdiv 2
    (a.window.w, a.window.h) = (if i.hm < height then (2 * (i.hm * i.wo / (2 * i.ho)), i.hm) else (width, height)) ∧
      x = 2 * (((i.cx : Int) - (a.window.w / 2 : Nat) + shift i.ex a.window.w i.wo + i.rx) / 2) ∧
      y = 2 * (((i.cy : Int) - (a.window.h / 2 : Nat) + shift i.ey a.window.h i.ho + i.ry) / 2) ∧
      (a.window.x0 : Int) = max 0 (min x (i.wm - a.window.w)) ∧ (a.window.y0 : Int) = max 0 (min y (i.hm - a.window.h)) ∧
      (a.floorFlag = true ↔ zoomed < least) ∧
      a.window.x0 + a.window.w ≤ i.wm ∧ a.window.y0 + a.window.h ≤ i.hm ∧
      a.window.x0 % 2 = 0 ∧ a.window.y0 % 2 = 0 ∧ a.window.w % 2 = 0 ∧ a.window.h % 2 = 0 ∧
      64 ≤ a.window.w ∧ 6 ≤ a.window.h ∧
      (a.edge = true ↔ x < 0 ∨ ((i.wm - a.window.w : Nat) : Int) < x ∨ y < 0 ∨ ((i.hm - a.window.h : Nat) : Int) < y) ∧
      (a.floorFlag = true ↔
        min i.wm (evenFloorDiv (i.wm * i.base * 1000 : Nat) (i.zoom * i.trim)).toNat <
          max 64 (evenCeilDiv i.wo 16).toNat)

/-- R31, R32, R33: the source position of a column and of a row, held within the window; the sample interpolated there
from up to four samples; no sample outside the window is read, and the sample rendered lies in 0..255. -/
def Obligations.ScalerReadsOnlyTheWindow : Prop :=
  ∀ (src src' : Nat → Nat → Nat) (win : Window) (out : Nat × Nat) (i j : Nat),
    0 < win.w → 0 < win.h → i < out.1 → j < out.2 →
    (∀ col row, win.x0 ≤ col → col < win.x0 + win.w → win.y0 ≤ row → row < win.y0 + win.h →
      src col row = src' col row ∧ src col row ≤ 255) →
    256 * win.x0 ≤ sourcePosition win.x0 win.w out.1 i ∧
      sourcePosition win.x0 win.w out.1 i ≤ 256 * (win.x0 + win.w - 1) ∧
      256 * win.y0 ≤ sourcePosition win.y0 win.h out.2 j ∧
      sourcePosition win.y0 win.h out.2 j ≤ 256 * (win.y0 + win.h - 1) ∧
      renderSample src win out i j = renderSample src' win out i j ∧ renderSample src win out i j ≤ 255 ∧
      (let position := fun (origin size grid n : Nat) =>
        max (256 * (origin : Int)) (min
          (256 * (origin : Int) + (256 * ((2 * n + 1 : Int) * size - grid)).tdiv (2 * grid))
          (256 * ((origin : Int) + size - 1)))
      let q := sourcePosition win.x0 win.w out.1 i
      let r := sourcePosition win.y0 win.h out.2 j
      (q : Int) = position win.x0 win.w out.1 i ∧ (r : Int) = position win.y0 win.h out.2 j ∧
        ∀ n fx m fy, q = 256 * n + fx → fx < 256 → r = 256 * m + fy → fy < 256 →
          renderSample src win out i j =
            (src n m * (256 - fx) * (256 - fy) + src (n + 1) m * fx * (256 - fy) + src n (m + 1) * (256 - fx) * fy +
              src (n + 1) (m + 1) * fx * fy + 32768) / 65536)

/-! ### Zoom requests and ramps (Chapter 3) -/

/-- R38, R40, R41: ZOOM_SET in STANDBY clamps the zoom into the limits, sets the nominal, and reports it, CLAMPED also
where the clamped zoom is the nominal already (model's choice: assumption log 38). A ZOOM_REQUEST
that is no REPLACE in STREAMING: a mode byte above 1 is refused BAD_PARAM, a full queue QUEUE_FULL, and any other
becomes the tail entry, its target clamped and its N lowered to 240. -/
def Obligations.ZoomTargetsAreClampedAndTaken : Prop :=
  (∀ (p : CmdPort) (z : Word16) (s : State), s.dev.ctl.resetLow = false → s.dev.mode = .standby →
      exec (.zoomSet p z) s = .next (s.answered p
        { status := if s.dev.clampZoom z.toNat = z.toNat then .ok else .clamped,
          payload := bytesLE 2 (s.dev.clampZoom z.toNat) }
        { s.dev with planner := { s.dev.planner with nominal := s.dev.clampZoom z.toNat } })) ∧
  ∀ (p : CmdPort) (id : Byte) (target : Word16) (n mode : Byte) (s : State),
    s.dev.ctl.resetLow = false → s.dev.mode = .streaming →
    let z := s.dev.clampZoom target.toNat
    let len := min 240 n.toNat
    let joined := s.dev.planner.queue ++ [{ id := id.toNat, target := z, length := len }]
    exec (.zoomRequestAppend p id target n mode) s = .next
      (if mode ≠ 0 then s.refusedWith p .badParam
      else if 8 ≤ s.dev.planner.queue.length then s.refusedWith p .queueFull
      else s.answered p
        { status := if z = target.toNat ∧ n.toNat ≤ 240 then .accepted else .clamped,
          payload := bytesLE 2 z ++ bytesLE 1 len ++ bytesLE 1 (s.dev.planner.queue.length + 1) }
        { s.dev with planner := { s.dev.planner with queue := joined } })

/-- R42, R43: REPLACE and ZOOM_CANCEL end the running ramp at the present nominal and discard the queue; the reply
carries the number dropped; when it is above 0, ZOOM_DROPPED is raised once with the ramp's id, or else the head
entry's. A REPLACE leaves its own entry as the only one. -/
def Obligations.ReplaceAndCancelDropRequests : Prop :=
  ∀ (p : CmdPort) (id : Byte) (target : Word16) (n : Byte) (s : State),
    s.dev.ctl.resetLow = false → s.dev.mode = .streaming →
    let dropped := s.dev.planner.queue.length + (if s.dev.planner.ramp = none then 0 else 1)
    let first := match s.dev.planner.ramp with
      | some r => some r.id
      | none => s.dev.planner.queue.head?.map ZoomEntry.id
    let left := fun (queue : List ZoomEntry) (reason : Nat) =>
      let emptied : Device := { s.dev with planner := { s.dev.planner with ramp := none, queue := queue } }
      if dropped = 0 then emptied
      else emptied.raise .zoomDropped
        { port := none, requestId := first, period := s.dev.currentPeriod, reason := some reason, zooms := none }
    let z := s.dev.clampZoom target.toNat
    let len := min 240 n.toNat
    exec (.zoomRequestReplace p id target n) s = .next (s.answered p
        { status := if z = target.toNat ∧ n.toNat ≤ 240 then .accepted else .clamped,
          payload := bytesLE 2 z ++ bytesLE 1 len ++ bytesLE 1 dropped }
        (left [{ id := id.toNat, target := z, length := len }] 0)) ∧
      exec (.zoomCancel p) s =
        .next (s.answered p { status := .ok, payload := bytesLE 1 dropped } (left [] 1))

/-- R45 to R48: the ramp step of a planning: what it does to the nominal, the ramp and the queue, the request id it
gives the plan, and whether a ramp completed in it. Every step of a ramp lies between its start and its target, on the
start's side of the straight line, never moves back, and the last step is the target. -/
def Obligations.RampStepsReachTheTarget : Prop :=
  (∀ pl : Planner,
      (∀ r, pl.ramp = some r → r.step + 1 < r.length →
        pl.rampStep =
          ({ pl with nominal := r.zoomAt (r.step + 1), ramp := some { r with step := r.step + 1 } }, some r.id, false)) ∧
      (∀ r, pl.ramp = some r → r.length ≤ r.step + 1 →
        pl.rampStep = ({ pl with nominal := r.zoomAt (r.step + 1), ramp := none }, some r.id, true)) ∧
      (pl.ramp = none → pl.queue = [] → pl.rampStep = (pl, none, false)) ∧
      (∀ e rest, pl.ramp = none → pl.queue = e :: rest → e.length = 0 →
        pl.rampStep = ({ pl with queue := rest, nominal := e.target }, some e.id, true)) ∧
      (∀ e rest, pl.ramp = none → pl.queue = e :: rest → 1 ≤ e.length →
        pl.rampStep =
          ({ pl with
              queue := rest
              ramp := some { id := e.id, start := pl.nominal, target := e.target, length := e.length, step := 0 } },
            some e.id, false))) ∧
  ∀ (r : Ramp) (j k : Nat), 1 ≤ r.length → j ≤ k → k ≤ r.length →
    r.zoomAt 0 = r.start ∧ r.zoomAt r.length = r.target ∧
    (r.start ≤ r.target → r.start ≤ r.zoomAt j ∧ r.zoomAt j ≤ r.zoomAt k ∧ r.zoomAt k ≤ r.target ∧
      (r.zoomAt j - r.start) * r.length ≤ (r.target - r.start) * j ∧
      (r.target - r.start) * j < (r.zoomAt j - r.start + 1) * r.length) ∧
    (r.target ≤ r.start → r.target ≤ r.zoomAt k ∧ r.zoomAt k ≤ r.zoomAt j ∧ r.zoomAt j ≤ r.start ∧
      (r.start - r.zoomAt j) * r.length ≤ (r.start - r.target) * j ∧
      (r.start - r.target) * j < (r.start - r.zoomAt j + 1) * r.length)

/-! ### Motion samples, holds and the capture input (Chapter 6) -/

/-- R94, R95, R93: MOTION_SAMPLE in STREAMING: the shift saturated to an eighth of the output size, the sample stamped and
put at the newest end, the oldest removed from a full ring with MOTION_OVERRUN, and the reply. -/
def Obligations.MotionSampleIsSaturatedAndKept : Prop :=
  ∀ (p : CmdPort) (ex ey q : Word16) (s : State) (wo ho : Nat), s.dev.ctl.resetLow = false → s.dev.mode = .streaming →
    s.dev.ctl.output.size = some (wo, ho) →
    let x := max (-((wo / 8 : Nat) : Int)) (min ((wo / 8 : Nat) : Int) ex.toInt)
    let y := max (-((ho / 8 : Nat) : Int)) (min ((ho / 8 : Nat) : Int) ey.toInt)
    let sample : MotionSample := { ex := x, ey := y, q := q.toNat, stamp := s.dev.now }
    let reply := fun count : Nat =>
      { status := if x = ex.toInt ∧ y = ey.toInt then Status.ok else .clamped,
        payload := signedLE 2 x ++ signedLE 2 y ++ bytesLE 1 count : Reply }
    exec (.motionSample p ex ey q) s = .next
      (if s.dev.motion.length < 32 then
        s.answered p (reply (s.dev.motion.length + 1)) { s.dev with motion := s.dev.motion ++ [sample] }
      else
        s.answered p (reply ((s.dev.motion.drop 1).length + 1))
          (Device.raise { s.dev with motion := s.dev.motion.drop 1 ++ [sample] } .motionOverrun
            (EventDetail.ofPeriod s.dev.currentPeriod none)))

/-- R96, R97: the shift for a capture time is that of the newest sample stamped at or before it, the last taken of
several, with NO_MOTION when there is none and STALE past the stale limit; the motion level is the newest sample's q. -/
def Obligations.MotionLookupFindsTheNewestSample : Prop :=
  ∀ (d : Device) (t : Nat),
    ((∀ x ∈ d.motion, t < x.stamp) → d.lookup t = { ex := 0, ey := 0, noMotion := true, stale := false }) ∧
    (∀ older newer x, d.motion = older ++ x :: newer → x.stamp ≤ t → (∀ y ∈ newer, t < y.stamp) →
      d.lookup t =
        { ex := x.ex, ey := x.ey, noMotion := false, stale := decide (d.ctl.handoff.staleLimit < t - x.stamp) }) ∧
    (d.motion = [] → d.motionLevel = 0) ∧ ∀ older x, d.motion = older ++ [x] → d.motionLevel = x.q

/-- R99, R101: HANDOFF_HOLD in STREAMING: on with a limit of 1..255 sets the counter and reports it, a limit of 0 or an
on byte above 1 is refused BAD_PARAM, off sets it to 0 whatever the limit, with no event. CAPTURE_CONFIG in STANDBY and
STREAMING sets the selection for an edge byte of 0..3 and is refused BAD_PARAM for any other; the guard and the pending
mark stand. -/
def Obligations.HoldAndCaptureSelectionAreSet : Prop :=
  (∀ (p : CmdPort) (on limit : Byte) (s : State), s.dev.ctl.resetLow = false → s.dev.mode = .streaming →
      exec (.handoffHoldOn p on limit) s = .next
        (if on = 1 ∧ limit ≠ 0 then
          s.answered p { status := .ok, payload := [limit] }
            { s.dev with planner := { s.dev.planner with hold := limit.toNat } }
        else s.refusedWith p .badParam) ∧
      exec (.handoffHoldOff p limit) s = .next
        (s.answered p { status := .ok, payload := [0] } { s.dev with planner := { s.dev.planner with hold := 0 } })) ∧
  ∀ (p : CmdPort) (edge : Byte) (s : State), s.dev.ctl.resetLow = false →
    (s.dev.mode = .standby ∨ s.dev.mode = .streaming) →
    let taken := fun c : CaptureSelect => Host.Outcome.next (φ := Fault) (ρ := Refusal)
      (s.answered p { status := .ok, payload := [] }
        { s.dev with planner := { s.dev.planner with captureSelect := c } })
    (edge = 0 → exec (.captureConfig p edge) s = taken .none) ∧
      (edge = 1 → exec (.captureConfig p edge) s = taken .rising) ∧
      (edge = 2 → exec (.captureConfig p edge) s = taken .falling) ∧
      (edge = 3 → exec (.captureConfig p edge) s = taken .both) ∧
      (3 < edge.toNat → exec (.captureConfig p edge) s = .next (s.refusedWith p .badParam))

/-- R102: an edge of the CAPTURE line that the selection includes, in STREAMING, raises CAPTURE_EDGE with the current
period and its direction, sets the guard to the guard length and sets the pending mark; every other edge changes
nothing. -/
def Obligations.CaptureEdgeSetsGuardAndMark : Prop :=
  ∀ (e : Edge) (s : State),
    let selected := match s.dev.planner.captureSelect with
      | .none => False
      | .rising => e = .rising
      | .falling => e = .falling
      | .both => True
    (s.dev.mode = .streaming → selected →
      exec (.captureEdge e) s = .next (s.withDevice (Device.raise
        { s.dev with planner := { s.dev.planner with guard := s.dev.ctl.handoff.guardLength, markPending := true } }
        .captureEdge (EventDetail.ofPeriod s.dev.currentPeriod (some (match e with | .rising => 0 | .falling => 1)))))) ∧
    (s.dev.mode ≠ .streaming ∨ ¬ selected → exec (.captureEdge e) s = .next s)

/-! ### Module ports (Chapter 7) -/

/-- R105, Table 7-1: the checks of PORT_CONFIG in STANDBY in their order, and the configuration it sets, with the newest
exposure at the initial exposure. -/
def Obligations.PortConfigIsCheckedAndSet : Prop :=
  ∀ (p : CmdPort) (f : PortFields) (s : State), s.dev.ctl.resetLow = false → s.dev.mode = .standby →
    let o := s.dev.ctl.output
    (3 < f.port.toNat → exec (.portConfig p f) s = .next (s.refusedWith p .badParam)) ∧
    ∀ m : PortId, f.port.toNat = m.toNat →
      exec (.portConfig p f) s = .next
        (if (s.dev.port m).state ≠ .off ∧ (s.dev.port m).state ≠ .dead then s.refusedWith p .busy
        else if 640 ≤ f.width.toNat ∧ f.width.toNat ≤ 4096 ∧ f.width.toNat % 2 = 0 ∧ 480 ≤ f.height.toNat ∧
            f.height.toNat ≤ 3072 ∧ f.height.toNat % 2 = 0 ∧ 1000 ≤ f.readout.toNat ∧ f.readout.toNat ≤ o.period ∧
            10 ≤ f.exposure.toNat ∧ f.exposure.toNat ≤ o.period ∧ (o.period + 3) / 4 ≤ f.deadline.toNat ∧
            f.deadline.toNat ≤ o.latency * o.period - o.guard ∧ 2 ≤ f.quota.toNat ∧ f.quota.toNat ≤ 6 ∧
            (f.policy = 0 ∨ f.policy = 1) ∧ (f.divisor = 2 ∨ f.divisor = 4) ∧
            (PortId.all.map fun n => if n = m then f.quota.toNat else s.dev.quota n).sum ≤ 12 then
          s.answered p { status := .ok, payload := [] } (s.dev.onPort m fun q =>
            { q with
              config := some
                { width := f.width.toNat, height := f.height.toNat, readout := f.readout.toNat,
                  exposure := f.exposure.toNat, deadline := f.deadline.toNat, quota := f.quota.toNat,
                  policy := if f.policy = 0 then .warm else .cold, divisor := f.divisor.toNat }
              newestExposure := f.exposure.toNat })
        else s.refusedWith p .badParam)

/-- R108, R109, R107, R135, R54: PORT_ENABLE and PORT_DISABLE in STANDBY and STREAMING. A port taken down loses its lane
count, pending FSYNC, expectation queue and frame being filled, and its unheld slots are freed; configuration,
calibration and counters are left; a port that had a link reports DOWN with cause PORT_RESET. -/
def Obligations.PortEnableAndDisable : Prop :=
  ∀ (p : CmdPort) (port : Byte) (s : State), s.dev.ctl.resetLow = false →
    (s.dev.mode = .standby ∨ s.dev.mode = .streaming) →
    (3 < port.toNat → exec (.portEnable p port) s = .next (s.refusedWith p .badParam) ∧
      exec (.portDisable p port) s = .next (s.refusedWith p .badParam)) ∧
    ∀ m : PortId, port.toNat = m.toNat →
      let freed := s.dev.slots.map fun x => if x.owner = some m ∧ x.unheld = true then Slot.freed x.id else x
      let down := fun q : ModulePort =>
        { q with lanes := none, pendingFsync := none, expectations := [], filling := none }
      let report := fun d : Device =>
        if (s.dev.port m).hasLink then d.reportLoss m (.down .portReset) else d
      ((s.dev.port m).config = none → exec (.portEnable p port) s = .next (s.refusedWith p .badParam)) ∧
      (∀ c, (s.dev.port m).config = some c →
        ((s.dev.port m).state = .resetting ∨ (s.dev.port m).state = .seeking →
          exec (.portEnable p port) s = .next (s.refusedWith p .ignored)) ∧
        ((s.dev.port m).state ≠ .resetting → (s.dev.port m).state ≠ .seeking →
          exec (.portEnable p port) s = .next (s.answered p { status := .ok, payload := [] }
            (report (Device.onPort { s.dev with slots := freed } m fun q =>
              { down q with state := .resetting, since := s.dev.now, newestExposure := c.exposure, badPeriods := 0,
                            goodRun := 0, stallAge := 0, allowance := .available }))))) ∧
      exec (.portDisable p port) s = .next (s.answered p { status := .ok, payload := [] }
        (report (Device.onPort { s.dev with slots := freed } m fun q => { down q with state := .off })))

/-- R110, R111, R107: the reset pulse ends 1,000 µs after entry to RESETTING and the first seek window opens with an FSYNC
pulse; a seek window ends after 5,000 µs and the next opens; after the twelfth the port is DEAD with PORT_DEAD. Before its
time, and in any other state, neither changes anything (model's choice: assumption log 2). With RESET_N high the MRST line
of a port is asserted exactly in OFF, RESETTING and DEAD. -/
def Obligations.PulsesAndSeekWindowsAreTimed : Prop :=
  ∀ (m : PortId) (s : State),
    let q := s.dev.port m
    (exec (.resetPulseEnd m) s = .next
      (if q.state = .resetting ∧ q.since + 1000 ≤ s.dev.now then
        s.withDevice (s.dev.onPort m fun x =>
          { x with state := .seeking, window := 0, since := q.since + 1000, lastPulse := some (q.since + 1000) })
      else s)) ∧
    (q.state = .seeking → q.since + 5000 ≤ s.dev.now → q.window < 11 →
      exec (.seekWindowEnd m) s = .next (s.withDevice (s.dev.onPort m fun x =>
        { x with window := q.window + 1, since := q.since + 5000, lastPulse := some (q.since + 5000) }))) ∧
    (q.state = .seeking → q.since + 5000 ≤ s.dev.now → 11 ≤ q.window →
      exec (.seekWindowEnd m) s = .next (s.withDevice (Device.raise
        (Device.onPort
          { s.dev with slots :=
              s.dev.slots.map fun x => if x.owner = some m ∧ x.unheld = true then Slot.freed x.id else x }
          m fun x =>
            { x with state := .dead, lanes := none, pendingFsync := none, expectations := [], filling := none })
        .portDead (EventDetail.ofPort m s.dev.currentPeriod (some 0))))) ∧
    (q.state ≠ .seeking ∨ s.dev.now < q.since + 5000 → exec (.seekWindowEnd m) s = .next s) ∧
    (s.dev.ctl.resetLow = false →
      (s.dev.mrstAsserted m = true ↔ q.state = .off ∨ q.state = .resetting ∨ q.state = .dead))

/-- R112, R111, R54: a frame start taken in SEEKING, decoded at the lane count of window w, the one in which its first
line began: ignored when the header is not valid at that count; SIZE fault when its size is not the configured one; else
the port is LINKED, its counters and health counts 0, and takes its standby role in STREAMING. A header that began before
the first window is ignored (model's choice: assumption log 33); the applied zoom is recomputed in STREAMING also where the
role was COLD and stays COLD (model's choice: assumption log 32). -/
def Obligations.SeekingHeaderLinksThePort : Prop :=
  (∀ (m : PortId) (h : FrameHeader) (s : State), (s.dev.port m).state = .seeking → h.straddles = true →
    (s.dev.port m).window = 0 → exec (.frameStart m h) s = .next s) ∧
  ∀ (m : PortId) (h : FrameHeader) (w : Nat) (s : State), (s.dev.port m).state = .seeking →
    (if h.straddles then w + 1 = (s.dev.port m).window else w = (s.dev.port m).window) →
    let lanes : Lanes := if w % 3 = 0 then .four else if w % 3 = 1 then .two else .one
    let linked : Device := s.dev.onPort m fun q =>
      { q with state := .linked, lanes := some lanes, good := 0, missed := 0, faulted := 0, dropped := 0, skips := 0,
               badPeriods := 0, goodRun := 0, stallAge := 0, frameCounter := h.counter.toNat, fsyncIssued := false,
               newestExposure := if h.exposure = 0 then q.newestExposure else h.exposure.toNat }
    let reported := linked.raise .portLinked (EventDetail.ofPort m s.dev.currentPeriod
      (some (match lanes with | .four => 0 | .two => 1 | .one => 2)))
    exec (.frameStart m h) s = .next
      (if h.checkOk = false ∨ h.lanes ≠ lanes then s
      else if (h.width, h.height) ≠ s.dev.frameSize m then
        s.withDevice ((s.dev.raise .frameFault (EventDetail.ofPort m s.dev.currentPeriod (some 1))).onPort m fun q =>
          { q with faulted := min 65535 (q.faulted + 1) })
      else if s.dev.mode = .streaming then
        s.withDevice ((reported.setRole m (s.dev.standbyRole m)).recomputeApplied)
      else s.withDevice reported)

/-- R114, R115, R106: an FSYNC request at a port with a link fixes the pending FSYNC for period k: its issue time T_k +
100 + φ, φ half the difference of the exposure reference and the newest exposure limited into 0..trunc(P/2), and its
deadline, the stored one limited into ceil(P/4)..L×P − G; a port without a link ignores it. At the issue time of a
pending FSYNC a record joins a queue of fewer than 4 and the pulse is driven, or, its deadline past, is missed at once
with the pulse driven; with 4 records no pulse is driven and the period is missed. A head record whose deadline comes is
removed and its period missed. Neither changes anything before its time (assumption logs 2 and 15). `missed` is the
missed counter's rise with the bad period of R120. -/
def Obligations.FsyncsAndDeadlinesAreTimed : Prop :=
  (∀ (d : Device) (m : PortId) (k : Nat) (c : PortConfig), (d.port m).config = some c →
      let o := d.ctl.output
      let start := d.sessionStart + k * o.period
      let phase := min (o.period / 2) ((o.exposureRef - (d.port m).newestExposure) / 2)
      let offset := min (o.latency * o.period - o.guard) (max ((o.period + 3) / 4) c.deadline)
      ((d.port m).state = .linked ∨ (d.port m).state = .stalled →
        d.requestFsync k m = d.onPort m fun q =>
          { q with pendingFsync := some { period := k, issue := start + 100 + phase, deadline := start + offset } }) ∧
      ((d.port m).state ≠ .linked → (d.port m).state ≠ .stalled → d.requestFsync k m = d)) ∧
  ∀ (m : PortId) (s : State),
    let missed := fun (d : Device) (k : Nat) =>
      (d.onPort m fun q => { q with missed := min 65535 (q.missed + 1) }).badPeriod m k .missed
    (∀ e, (s.dev.port m).pendingFsync = some e → e.issue ≤ s.dev.now →
      exec (.fsyncIssue m) s = .next (s.withDevice
        (if 4 ≤ (s.dev.port m).expectations.length then
          missed (s.dev.onPort m fun q => { q with pendingFsync := none }) e.period
        else if e.deadline < s.dev.now then
          missed (s.dev.onPort m fun q =>
            { q with pendingFsync := none, fsyncIssued := true, lastPulse := some e.issue }) e.period
        else s.dev.onPort m fun q =>
          { q with pendingFsync := none, fsyncIssued := true, lastPulse := some e.issue,
                   expectations := q.expectations ++ [e] }))) ∧
    ((∀ e, (s.dev.port m).pendingFsync = some e → s.dev.now < e.issue) → exec (.fsyncIssue m) s = .next s) ∧
    (∀ e rest, (s.dev.port m).expectations = e :: rest → e.deadline ≤ s.dev.now →
      exec (.frameDeadline m) s =
        .next (s.withDevice (missed (s.dev.onPort m fun q => { q with expectations := rest }) e.period))) ∧
    ((∀ e rest, (s.dev.port m).expectations = e :: rest → s.dev.now < e.deadline) →
      exec (.frameDeadline m) s = .next s)

/-- R120, R62, R121: a bad period raises the bad-period count up to 15, ends the good run and is heard by the View
Planner; a LINKED port whose count reaches the stall limit enters STALLED with PORT_STALLED and reports it. In PREPARE a
bad period of the DEST sets the prepare count to 0, and in no other case does a bad period change the View Planner by
itself. A good frame of the DEST raises the prepare count when its focus is settled and sets it to 0 when not; at 2 the
state becomes PROBE with the deferral count 0 and the probe start check is made. A dropped frame leaves the count. An
outcome of another port, or in another state than PREPARE, leaves the device as it is. The start check (R64, R84, also
made at a frame-ready of the ACTIVE or DEST port): in PROBE with no probe in flight, no hold, a motion level within the
limit and a pair, both slots are held and the probe context is filled, with the shift looked up for the ACTIVE slot's
capture centre; in every other case nothing changes. -/
def Obligations.OutcomesInHealthAndPrepare : Prop :=
  (∀ (d : Device) (m : PortId) (k : Nat) (why : BadReason),
      let count := min 15 ((d.port m).badPeriods + 1)
      let heard : Planner := match d.planner.state, d.planner.context with
        | some .prepare, some c =>
          if c.dest = m ∧ d.mode = .streaming then { d.planner with context := some { c with prepared := 0 } }
          else d.planner
        | _, _ => d.planner
      let counted : Device :=
        { d.onPort m fun q => { q with badPeriods := count, goodRun := 0 } with planner := heard }
      d.badPeriod m k why =
        if (d.port m).state = .linked ∧ d.ctl.handoff.stallLimit ≤ count then
          ((counted.onPort m fun q => { q with state := .stalled, stallAge := 0 }).raise .portStalled
            (EventDetail.ofPort m (some k) (some (match why with | .missed => 0 | .faulted => 1)))).reportLoss m .stalled
        else counted) ∧
  (∀ (d : Device) (m : PortId) (zoom : Nat),
    (d.frameReady m = if d.role m = .active ∨ d.role m = .dest then d.probeCheck d.planner.applied else d) ∧
    (d.planner.state ≠ some .probe ∨ d.probe ≠ none ∨ 0 < d.planner.hold ∨
        d.ctl.handoff.motionLimit < (d.motion.getLast?.map MotionSample.q).getD 0 → d.probeCheck zoom = d) ∧
    ∀ a c, d.planner.state = some .probe → d.planner.context = some c → d.role a = .active →
      (∀ n, d.role n = .active → n = a) → d.probe = none → d.planner.hold = 0 →
      (d.motion.getLast?.map MotionSample.q).getD 0 ≤ d.ctl.handoff.motionLimit →
      (d.pairQuery a c.dest = none → d.probeCheck zoom = d) ∧
      ∀ x y k centre, d.pairQuery a c.dest = some (x, y) → x.period = some k → x.centre = some centre →
        let hold := fun (id : Nat) (z : Slot) =>
          if z.id = id then { z with state := .held, useCount := z.useCount + 1 } else z
        d.probeCheck zoom =
          { d with
            slots := (d.slots.map (hold x.id)).map (hold y.id)
            probe := some
              { activePort := a, destPort := c.dest, activeSlot := x.id, destSlot := y.id, period := k, zoom := zoom,
                ex := (d.lookup centre).ex, ey := (d.lookup centre).ey, start := d.now } }) ∧
  (∀ (d : Device) (m : PortId) (o : FrameOutcome),
    (d.planner.state ≠ some .prepare ∨ (∀ c, d.planner.context = some c → c.dest ≠ m) ∨ d.mode ≠ .streaming) →
    d.takeOutcome m o = d) ∧
  ∀ (d : Device) (m : PortId) (c : HandoffContext), d.planner.state = some .prepare → d.planner.context = some c →
    c.dest = m → d.mode = .streaming →
    (c.prepared + 1 < 2 → d.takeOutcome m (.good true) =
      { d with planner := { d.planner with context := some { c with prepared := c.prepared + 1 } } }) ∧
    (2 ≤ c.prepared + 1 → d.takeOutcome m (.good true) =
      Device.probeCheck
        { d with planner :=
          { d.planner with state := some .probe, context := some { c with prepared := 2, deferral := 0 } } }
        d.planner.applied) ∧
    d.takeOutcome m (.good false) =
      { d with planner := { d.planner with context := some { c with prepared := 0 } } } ∧
    d.takeOutcome m .dropped = d

/-- R116, R119, Table 7-2: a frame start. A frame being filled ends SHORT first, and the frame start is then taken in
the state that leaves. Where no frame is being filled: outside SEEKING, LINKED and STALLED, and outside STREAMING, it
changes nothing. In STREAMING, on a LINKED or STALLED port: with the queue empty it is discarded, where the port has
issued no FSYNC since it linked or, in period 0, none since T_0 (model's reading: assumption log 30), or is UNSOLICITED;
otherwise the head record is consumed, and the frame faults CRC or SIZE with a bad period, is given a slot with its
capture centre, or is dropped. That a valid header that is discarded, UNSOLICITED or of another size becomes the
previous frame counter, and at the latter two is checked for a skip, is the model's reading (assumption log 11). -/
def Obligations.FrameStartMeetsTheHeadRecord : Prop :=
  (∀ (m : PortId) (h : FrameHeader) (s : State) (f : Fill), (s.dev.port m).filling = some f →
      (s.dev.port m).state = .linked ∨ (s.dev.port m).state = .stalled → s.dev.mode = .streaming →
      ∃ t, exec (.frameStart m h) s = .next t ∧
        exec (.frameStart m h) (s.withDevice (s.dev.faultFill m f .short)) = .next t) ∧
  ∀ (m : PortId) (h : FrameHeader) (s : State), (s.dev.port m).filling = none →
    let q := s.dev.port m
    let valid := h.checkOk = true ∧ q.lanes = some h.lanes
    let header := fun x : ModulePort =>
      { x with
        frameCounter := h.counter.toNat
        skips := if h.counter.toNat = (q.frameCounter + 1) % 65536 then q.skips else min 65535 (q.skips + 1) }
    let fault := fun (d : Device) (k : Option Nat) (reason : Nat) =>
      (d.raise .frameFault (EventDetail.ofPort m k (some reason))).onPort m fun x =>
        { x with faulted := min 65535 (x.faulted + 1) }
    let waits := q.fsyncIssued = false ∨
      (s.dev.ctl.session.map Session.current).getD 0 = 0 ∧ ∀ t, q.lastPulse = some t → t < s.dev.sessionStart
    (q.state = .off ∨ q.state = .resetting ∨ q.state = .dead → exec (.frameStart m h) s = .next s) ∧
    (q.state = .linked ∨ q.state = .stalled → s.dev.mode ≠ .streaming → exec (.frameStart m h) s = .next s) ∧
    (q.state = .linked ∨ q.state = .stalled → s.dev.mode = .streaming →
      (q.expectations = [] → waits →
        (valid → exec (.frameStart m h) s =
          .next (s.withDevice (s.dev.onPort m fun x => { x with frameCounter := h.counter.toNat }))) ∧
        (¬ valid → exec (.frameStart m h) s = .next s)) ∧
      (q.expectations = [] → ¬ waits →
        (valid → exec (.frameStart m h) s =
          .next (s.withDevice (fault (s.dev.onPort m header) s.dev.currentPeriod 4))) ∧
        (¬ valid → exec (.frameStart m h) s = .next (s.withDevice (fault s.dev s.dev.currentPeriod 4)))) ∧
      ∀ e rest, q.expectations = e :: rest →
        let consumed := s.dev.onPort m fun x => { x with expectations := rest }
        let checked := consumed.onPort m header
        (¬ valid → exec (.frameStart m h) s =
          .next (s.withDevice ((fault consumed (some e.period) 0).badPeriod m e.period .faulted))) ∧
        (valid → (h.width, h.height) ≠ s.dev.frameSize m → exec (.frameStart m h) s =
          .next (s.withDevice ((fault checked (some e.period) 1).badPeriod m e.period .faulted))) ∧
        (valid → (h.width, h.height) = s.dev.frameSize m →
          let exposure := if h.exposure = 0 then q.newestExposure else h.exposure.toNat
          (∀ x, s.dev.ownedCount m < s.dev.quota m → s.dev.lowestFree = some x →
            exec (.frameStart m h) s = .next (s.withDevice
              ((checked.onSlot x.id fun y =>
                { y with state := .filling, owner := some m, period := some e.period,
                         centre := some (e.issue + exposure / 2), exposure := exposure, settled := h.settled,
                         useCount := 0 }).onPort m fun x' =>
                { x' with filling := some { slot := x.id, start := s.dev.now, lines := 0 } }))) ∧
          (s.dev.quota m ≤ s.dev.ownedCount m → exec (.frameStart m h) s = .next (s.withDevice
            ((checked.raise .frameDropped (EventDetail.ofPort m (some e.period) none)).onPort m fun x' =>
              { x' with dropped := min 65535 (x'.dropped + 1) })))))

/-- R116, R118, 8.1: a pixel line, of a frame that lies in frame memory (one that does not faults by name; no run from
reset meets it). With no frame being filled it is discarded. Beyond the last line it faults the frame SIZE, or, its
check failing too, CRC or SIZE (left open: assumption log 5); a failed check faults it CRC. Otherwise the line is
counted and its samples stand in their rows of the slot's picture, and every other byte of memory reads as before. Of a line
of another length than the frame's width, the samples beyond the width are not stored, and a shorter one leaves the rest of
its row. Where the rows and planes lie, which lines carry chroma, what another length stores, and the named fault are the
model's choices (assumption logs 8, 18 and 26). -/
def Obligations.PixelLinesAreStored : Prop :=
  ∀ (m : PortId) (y u v : List Byte) (checkOk : Bool) (s : State),
    ((s.dev.port m).filling = none → exec (.pixelLine m y u v checkOk) s = .next s) ∧
    ∀ f, (s.dev.port m).filling = some f →
      let w := (s.dev.frameSize m).1
      let h := (s.dev.frameSize m).2
      let at_ := fun (pl : Plane) (col row : Nat) => sampleAddress (slotBase f.slot) w h pl col row
      (h ≤ f.lines → checkOk = true →
        exec (.pixelLine m y u v checkOk) s = .next (s.withDevice (s.dev.faultFill m f .size))) ∧
      (h ≤ f.lines → checkOk = false →
        exec (.pixelLine m y u v checkOk) s = .next (s.withDevice (s.dev.faultFill m f .crc)) ∨
        exec (.pixelLine m y u v checkOk) s = .next (s.withDevice (s.dev.faultFill m f .size))) ∧
      (f.lines < h → checkOk = false →
        exec (.pixelLine m y u v checkOk) s = .next (s.withDevice (s.dev.faultFill m f .crc))) ∧
      (f.lines < h → checkOk = true → s.dev.frameInMemory f.slot m = false →
        exec (.pixelLine m y u v checkOk) s = .fault .frameMemoryRange) ∧
      (f.lines < h → checkOk = true → s.dev.frameInMemory f.slot m = true → s.mem.wf = true → h % 2 = 0 →
        ∃ mem, exec (.pixelLine m y u v checkOk) s = .next
            { s with
              dev := s.dev.onPort m fun q => { q with filling := some { f with lines := f.lines + 1 } }
              mem := mem } ∧
          (∀ i b, i < w → y[i]? = some b → Memory.read mem (at_ .y i f.lines) = b) ∧
          (∀ i b, i < w / 2 → u[i]? = some b → Memory.read mem (at_ .u i (f.lines / 2)) = b) ∧
          (∀ i b, i < w / 2 → v[i]? = some b → Memory.read mem (at_ .v i (f.lines / 2)) = b) ∧
          ∀ a, (∀ i, i < w → i < y.length → a ≠ at_ .y i f.lines) →
            (∀ i, i < w / 2 → i < u.length → a ≠ at_ .u i (f.lines / 2)) →
            (∀ i, i < w / 2 → i < v.length → a ≠ at_ .v i (f.lines / 2)) → Memory.read mem a = Memory.read s.mem a)

/-- R117, R118, R121, R129, R134, R135, R64: the frame end of a frame after its Hm lines, in the rule's order: the slot
becomes READY with the supersession check and the probe start check; the newest exposure is the slot's and the good
counter rises; the bad-period count is 0, the good run rises to at most 2, and at 2 the allowance is AVAILABLE and a
STALLED port becomes LINKED with stall age 0 and PORT_RECOVERED; the View Planner takes the outcome; and the slot of a
COLD port is then freed. Before the Hm-th line the frame ends SHORT; at frame start + 2 × readout time it ends TIMEOUT.
With no frame being filled, and before the timeout, nothing happens (model's choice: assumption log 2). A fault of the
frame frees its slot, raises FRAME_FAULT with the slot's period and the reason, and raises the faulted counter; the
period is bad. -/
def Obligations.FramesEndGoodOrFaulted : Prop :=
  (∀ (m : PortId) (s : State),
      let q := s.dev.port m
      (q.filling = none → exec (.frameEnd m) s = .next s ∧ exec (.fillTimeout m) s = .next s) ∧
      ∀ f x, q.filling = some f → s.dev.slot? f.slot = some x →
        (f.lines < (s.dev.frameSize m).2 →
          exec (.frameEnd m) s = .next (s.withDevice (s.dev.faultFill m f .short))) ∧
        (∀ c, q.config = some c →
          exec (.fillTimeout m) s = .next
            (if f.start + 2 * c.readout ≤ s.dev.now then s.withDevice (s.dev.faultFill m f .timeout) else s)) ∧
        ((s.dev.frameSize m).2 ≤ f.lines → ∀ k, x.period = some k →
          let ready := Device.supersede
            (Device.onPort
              { s.dev with slots := s.dev.slots.map fun y =>
                  if y.id = f.slot then { y with state := .ready, useCount := 0 } else y }
              m fun z => { z with filling := none }) m
          let checked := if s.dev.role m = .active ∨ s.dev.role m = .dest then ready.probeCheck s.dev.planner.applied
            else ready
          let run := min 2 (q.goodRun + 1)
          let recovers := run = 2 ∧ q.state = .stalled
          let counted := checked.onPort m fun z =>
            { z with newestExposure := x.exposure, good := min 65535 (q.good + 1), badPeriods := 0, goodRun := run,
                     allowance := if run = 2 then .available else q.allowance,
                     state := if recovers then .linked else q.state,
                     stallAge := if recovers then 0 else q.stallAge }
          let told := if recovers then counted.raise .portRecovered (EventDetail.ofPort m (some k) none) else counted
          let heard := told.takeOutcome m (.good x.settled)
          exec (.frameEnd m) s = .next (s.withDevice
            (if s.dev.role m = .cold then
              { heard with slots := heard.slots.map fun y =>
                  if y.id = f.slot ∧ y.state = .ready then Slot.freed y.id else y }
            else heard))) ∧
        ((s.dev.frameSize m).2 ≤ f.lines →
          ∃ t, exec (.frameEnd m) s = .next t ∧ t.mem = s.mem ∧ t.pending = s.pending ∧ t.freeIndex = s.freeIndex ∧
            let r := t.dev.port m
            (∀ y ∈ t.dev.slots, y.id = f.slot → y.state ≠ .filling) ∧
            r.filling = none ∧ r.newestExposure = x.exposure ∧ r.good = min 65535 (q.good + 1) ∧ r.badPeriods = 0 ∧
            r.goodRun = min 2 (q.goodRun + 1) ∧
            (2 ≤ q.goodRun + 1 → r.allowance = .available ∧ (q.state = .stalled → r.state = .linked)) ∧
            (q.goodRun + 1 < 2 → r.allowance = q.allowance ∧ r.state = q.state) ∧
            r.config = q.config ∧ r.lanes = q.lanes ∧ r.expectations = q.expectations ∧ r.missed = q.missed ∧
            r.faulted = q.faulted ∧ r.dropped = q.dropped ∧ r.skips = q.skips ∧ r.frameCounter = q.frameCounter ∧
            (∀ n, n ≠ m → t.dev.port n = s.dev.port n) ∧ t.dev.cal = s.dev.cal ∧ t.dev.ctl = s.dev.ctl ∧
            t.dev.motion = s.dev.motion ∧ t.dev.buffers = s.dev.buffers ∧ t.dev.link = s.dev.link)) ∧
  ∀ (d : Device) (m : PortId) (f : Fill) (r : FaultReason) (x : Slot) (k : Nat),
    d.slot? f.slot = some x → x.period = some k →
    d.faultFill m f r =
      (((Device.onPort
          { d with slots := d.slots.map fun y => if y.id = f.slot then Slot.freed y.id else y } m
          fun q => { q with filling := none }).raise .frameFault
        (EventDetail.ofPort m (some k) (some (match r with
          | .crc => 0 | .size => 1 | .short => 2 | .timeout => 3 | .unsolicited => 4)))).onPort m fun q =>
        { q with faulted := min 65535 (q.faulted + 1) }).badPeriod m k .faulted

/-! ### Frame slots (Chapter 8) -/

/-- R136, R137: the pairing rule, on slot lists with at most one complete slot of a port and a period, and the pair
query: the largest content period that both ports hold a READY or HELD slot of, with the two slots. -/
def Obligations.PairingFindsTheFrame : Prop :=
  ∀ (d : Device) (m n : PortId) (k : Nat),
    let holds := fun (q : PortId) (j : Nat) (x : Slot) =>
      x ∈ d.slots ∧ x.owner = some q ∧ (x.state = .ready ∨ x.state = .held) ∧ x.period = some j
    (∀ q j x y, holds q j x → holds q j y → x = y) →
    (∀ x, holds m k x → d.pair m k = some (x, false)) ∧
    (∀ j x, (∀ y, ¬ holds m k y) → holds m j x → j < k → (∀ i y, holds m i y → i < k → i ≤ j) →
      d.pair m k = some (x, true)) ∧
    ((∀ j x, j ≤ k → ¬ holds m j x) → d.pair m k = none) ∧
    (∀ j x y, holds m j x → holds n j y → (∀ i x' y', holds m i x' → holds n i y' → i ≤ j) →
      d.pairQuery m n = some (x, y)) ∧
    ((∀ j x y, holds m j x → ¬ holds n j y) → d.pairQuery m n = none)

/-- R128, R130, R131, R134: allocation gives a port below its quota the lowest-numbered FREE slot and one at its quota
none; a hold raises the use count and makes a READY slot HELD; a release lowers it, and at 0 the slot becomes FREE
(STOPPING, owner COLD or without a link) or READY with the supersession check, which frees exactly the port's READY
slots older than its newest complete slot at or before the compose point. -/
def Obligations.SlotsAreAllocatedHeldAndReleased : Prop :=
  ∀ (d : Device) (m : PortId), d.slots.map Slot.id = List.range 12 →
    let due := fun (x : Slot) (k : Nat) =>
      x ∈ d.slots ∧ x.owner = some m ∧ (x.state = .ready ∨ x.state = .held) ∧ x.period = some k ∧ k ≤ d.composePoint
    (∀ k centre exposure settled x, x ∈ d.slots → x.state = .free →
      (∀ y ∈ d.slots, y.state = .free → x.id ≤ y.id) → d.ownedCount m < d.quota m →
      d.allocate m k centre exposure settled = (some x.id, { d with slots := d.slots.map fun y =>
        if y.id = x.id then
          { id := x.id, state := .filling, owner := some m, period := some k, centre := some centre,
            exposure := exposure, settled := settled, useCount := 0 }
        else y })) ∧
    (∀ k centre exposure settled, d.quota m ≤ d.ownedCount m →
      d.allocate m k centre exposure settled = (none, d)) ∧
    (∀ id, d.holdSlot id = { d with slots := d.slots.map fun y =>
      if y.id = id then { y with state := .held, useCount := y.useCount + 1 } else y }) ∧
    (∀ x, x ∈ d.slots → x.state = .held → x.owner = some m →
      (1 < x.useCount → d.releaseSlot x.id = { d with slots := d.slots.map fun y =>
        if y.id = x.id then { y with useCount := y.useCount - 1 } else y }) ∧
      (x.useCount ≤ 1 → d.mode = .stopping ∨ d.role m = .cold ∨ (d.port m).hasLink = false →
        d.releaseSlot x.id = { d with slots := d.slots.map fun y => if y.id = x.id then Slot.freed y.id else y }) ∧
      (x.useCount ≤ 1 → d.mode ≠ .stopping → d.role m ≠ .cold → (d.port m).hasLink = true →
        d.releaseSlot x.id = Device.supersede { d with slots := d.slots.map fun y =>
          if y.id = x.id then { y with state := .ready, useCount := 0 } else y } m)) ∧
    ((∀ newest x, due x newest → (∀ y k, due y k → k ≤ newest) →
        d.supersede m =
          { d with
            slots := d.slots.map fun y =>
              if y.owner = some m ∧ y.state = .ready ∧ y.period.getD 0 < newest then Slot.freed y.id else y }) ∧
      ((∀ x k, ¬ due x k) → d.supersede m = d))

/-! ### The hand-off sequencer (Chapter 4) -/

/-- R70, R71, R72, R58, R53, R54: a STALLED or DOWN report in STREAMING, by the role of the port that makes it: an abort
for the DEST; a forced commit for the ACTIVE port with a hand-off under way; for the ACTIVE port in STEADY the fallback,
and with no fallback candidate nothing (STALLED) or NO_SOURCE (DOWN). Of a WARM or COLD port a STALLED report changes
nothing, a DOWN report makes it COLD and a LINKED report gives it its standby role, the applied zoom recomputed (also where
the role stays: model's choice, assumption log 32). A port that recovers leaves the View Planner as it is. Outside
STREAMING a report changes nothing. The standby role is WARM where the port's configuration names WARM, else COLD. -/
def Obligations.LossReportsEndHandoffs : Prop :=
  ∀ (d : Device) (m : PortId) (r : LossReport),
    let rest := match r with | .stalled => d.standbyRole m | .down _ => .cold
    let cause := match r with | .stalled => 0 | .down .portReset => 1 | .down .autoReset => 2
    let freed := if rest = .cold then d.freeUnheld m else d
    let held := fun n : PortId => max d.planner.nominal (d.calOf n).lower
    let settled := fun (role : Role) => Device.recomputeApplied
      { (if role = .cold then d.freeUnheld m else d) with planner :=
        { d.planner with roles := d.planner.roles.set m role } }
    (d.standbyRole m = if ∃ c, (d.port m).config = some c ∧ c.policy = .warm then .warm else .cold) ∧
    (d.mode ≠ .streaming → d.reportLoss m r = d ∧ d.reportLinked m = d) ∧
    (d.mode = .streaming → d.reportLinked m = settled (d.standbyRole m)) ∧
    (d.mode = .streaming → d.role m ≠ .active → d.role m ≠ .dest →
      (r = .stalled → d.reportLoss m r = d) ∧ (r ≠ .stalled → d.reportLoss m r = settled .cold)) ∧
    (∀ k, (d.goodPeriod m k).planner = d.planner) ∧
    (d.mode = .streaming → (match r with
        | .stalled => (d.port m).state = .stalled
        | .down _ => (d.port m).hasLink = false) →
      (∀ a, d.role m = .dest → d.role a = .active → (∀ n, d.role n = .active → n = a) →
        d.reportLoss m r = Device.withEvents
          { freed with planner := { d.planner with
              roles := d.planner.roles.set m rest
              bars := d.planner.bars.set m d.ctl.handoff.backoff
              state := some .steady
              context := none
              applied := held a } }
          (d.events.raise d.now .handoffAborted (EventDetail.ofPort m (some d.period) (some cause)))) ∧
      (∀ c, d.role m = .active → (∀ n, d.role n = .active → n = m) → d.planner.context = some c → c.dest ≠ m →
        d.reportLoss m r = Device.withEvents
          { freed with planner := { d.planner with
              roles := (d.planner.roles.set m rest).set c.dest .active
              state := some .steady
              context := none
              lastChange := some { old := some m, new := c.dest, reason := .forced, period := d.period }
              applied := held c.dest } }
          (d.events.raise d.now .handoffDone (EventDetail.ofPort c.dest (some d.period) (some 1)))) ∧
      (d.role m = .active → (∀ n, d.role n = .active → n = m) → d.planner.context = none →
        d.planner.state = some .steady →
        (∀ n, d.fallbackChoice = some n →
          d.reportLoss m r = Device.withEvents
            { freed with planner := { d.planner with
                roles := (d.planner.roles.set m rest).set n .active
                lastChange := some { old := some m, new := n, reason := .fallback, period := d.period }
                applied := held n } }
            (d.events.raise d.now .handoffDone (EventDetail.ofPort n (some d.period) (some 2)))) ∧
        (d.fallbackChoice = none → r = .stalled →
          d.reportLoss m r = { d with planner := { d.planner with applied := held m } }) ∧
        (d.fallbackChoice = none → r ≠ .stalled →
          d.reportLoss m r = Device.withEvents
            { freed with planner := { d.planner with
                roles := d.planner.roles.set m .cold
                state := some .noSource
                applied := d.planner.nominal } }
            (d.events.raise d.now .noSource (EventDetail.ofPort m (some d.period) (some (cause - 1)))))))

/-- R68, R91: the weight of blend step j and its residual step: for N_b in 1..16 and j in 1..N_b the weight lies in
1..255 and rises with j; the residual step is even, has the sign of the residual, is at most the residual's share in
size, does not rise from one step to the next, and is 0 unless the residual record was accepted. -/
def Obligations.BlendScheduleIsTheRules : Prop :=
  ∀ n j : Nat, 1 ≤ n → n ≤ 16 → 1 ≤ j → j ≤ n →
    (blendWeight n j * (n + 1) ≤ 256 * j ∧ 256 * j < (blendWeight n j + 1) * (n + 1) ∧ 1 ≤ blendWeight n j ∧
      blendWeight n j ≤ 255) ∧
    (∀ r : Int, 0 ≤ r →
      Even (residualStep n j r) ∧ 0 ≤ residualStep n j r ∧ residualStep n j r * (n + 1) ≤ r * (n + 1 - j) ∧
      r * (n + 1 - j) < (residualStep n j r + 2) * (n + 1) ∧ residualStep n j (-r) = -residualStep n j r ∧
      (j + 1 ≤ n → residualStep n (j + 1) r ≤ residualStep n j r)) ∧
    ∀ (d : Device) (c : HandoffContext), d.ctl.handoff.blendLength = n → c.step = j →
      let b := d.blendStep c
      b.dest = c.dest ∧ b.step = j ∧ b.alpha = blendWeight n j ∧
        (∀ q, c.residual = some q →
          (q.accepted = .yes → b.rx = residualStep n j q.rx ∧ b.ry = residualStep n j q.ry) ∧
          (q.accepted ≠ .yes → b.rx = 0 ∧ b.ry = 0) ∧
          (b.lowConfidence = true ↔ q.accepted = .no) ∧ (b.probeSkipped = true ↔ q.accepted = .skipped))

/-! ### Streaming and the plannings (Chapters 4 and 10) -/

/-- R168, R79, R132, R142, R165, R159, R77, R114, R60: STREAM_START in STANDBY is refused BAD_PARAM without an output size
(also where no preferred port exists: model's choice, assumption log 36) and NO_SOURCE without a preferred port; otherwise
STREAMING begins with T_0 the time of the command, the preferred port ACTIVE, the session-start values, planning 0 run and
an FSYNC for period 0 pending at every port of its sync set, which is every port but the COLD ones. MODE_CHANGED is raised,
and after it HANDOFF_STARTED where planning 0 begins a hand-off, and nothing else. That this MODE_CHANGED comes before the
first period start and so carries no period is the model's reading (assumption log 14). -/
def Obligations.StreamStartBeginsTheSession : Prop :=
  ∀ (p : CmdPort) (s : State), s.dev.ctl.resetLow = false → s.dev.mode = .standby →
    (s.dev.ctl.output.size = none → exec (.streamStart p) s = .next (s.refusedWith p .badParam)) ∧
    (s.dev.ctl.output.size ≠ none → s.dev.preferredCandidate = none →
      exec (.streamStart p) s = .next (s.refusedWith p .noSource)) ∧
    ∀ a, s.dev.ctl.output.size ≠ none → s.dev.preferredCandidate = some a → s.dev.planner.ramp = none →
      s.dev.planner.queue = [] → (∀ m, (s.dev.port m).state ≠ .stalled) →
      ∃ t v, exec (.streamStart p) s = .next t ∧ t.mem = s.mem ∧ t.pending = s.pending ∧ t.freeIndex = s.freeIndex ∧
        (t.dev.host p).reply =
          { status := .ok, payload := bytesLE 6 s.dev.now ++ [BitVec.ofNat 8 a.toNat] } ∧
        (∀ q, q ≠ p → t.dev.host q = s.dev.host q) ∧
        t.dev.ctl = { s.dev.ctl with mode := .streaming, session := some { start := s.dev.now, current := 0, nextPlan := 1 } } ∧
        t.dev.composePoint = 0 ∧ t.dev.link = { s.dev.link with nonFresh := 0, frozenReported := false } ∧
        t.dev.role a = .active ∧
        (∀ n, n ≠ a → t.dev.role n = .dest ∨
          t.dev.role n = if (s.dev.port n).state = .linked then s.dev.standbyRole n else .cold) ∧
        t.dev.planner.nominal = s.dev.planner.nominal ∧
        t.dev.planner.applied = max s.dev.planner.nominal (s.dev.calOf a).lower ∧
        t.dev.planner.bars = PerPort.all 0 ∧ t.dev.planner.hold = 0 ∧
        t.dev.planner.guard = 0 ∧ t.dev.planner.markPending = false ∧
        (t.dev.planner.state = some .steady ∨ t.dev.planner.state = some .prepare) ∧
        t.dev.planner.plans = [v] ∧ v.period = 0 ∧ v.active = some a ∧ a ∈ v.syncSet ∧ v.captureMark = false ∧
        (∃ e, (t.dev.port a).pendingFsync = some e ∧ e.period = 0) ∧
        (∀ m, m ∈ v.syncSet ↔ t.dev.role m ≠ .cold) ∧
        (∀ m ∈ v.syncSet, ∃ e, (t.dev.port m).pendingFsync = some e ∧ e.period = 0) ∧
        (∀ m, m ∉ v.syncSet → t.dev.port m = s.dev.port m) ∧
        (let entered := s.dev.events.raise s.dev.now .modeChanged (EventDetail.ofPeriod s.dev.currentPeriod (some 3))
        (t.dev.planner.context = none → t.dev.planner.state = some .steady ∧ t.dev.events = entered) ∧
        ∀ c, t.dev.planner.context = some c → t.dev.planner.state = some .prepare ∧ t.dev.role c.dest = .dest ∧
          t.dev.events = entered.raise s.dev.now .handoffStarted
            { port := some c.dest, requestId := none, period := some 0,
              reason := some (match c.direction with | .up => 0 | .down => 1), zooms := none }) ∧
        t.dev.cal = s.dev.cal ∧ t.dev.motion = s.dev.motion ∧ t.dev.slots = s.dev.slots ∧
        t.dev.buffers = s.dev.buffers ∧ t.dev.probeResult = s.dev.probeResult

/-- R169, R51, R80, R69, R93, R123, R138, R148, R157, R159, R55: STREAM_STOP in STREAMING: every block's stop action with
its events in their order (MODE_CHANGED, HANDOFF_ABANDONED with reason STOPPED for a hand-off under way, FENCE_DONE with
status CUT for a fence outstanding); STOPPING while a composition, a pending record of one or an emission remains, the roles
and the hand-off state standing as the abandon leaves them and a SKIPPED pending record emptied; else STANDBY in the same
step with MODE_CHANGED again. DRAIN_END is the end of STOPPING once nothing remains, and changes nothing before (model's
choice: assumption log 2). That MODE_CHANGED carries no period at STANDBY is the model's reading (assumption log 14). -/
def Obligations.StreamStopDrains : Prop :=
  ∀ (p : CmdPort) (s : State),
    (s.dev.ctl.resetLow = false → s.dev.mode = .streaming →
      ∃ t, exec (.streamStop p) s = .next t ∧ t.mem = s.mem ∧ t.pending = s.pending ∧ t.freeIndex = s.freeIndex ∧
        (t.dev.host p).reply = { status := .ok, payload := [] } ∧ (∀ q, q ≠ p → t.dev.host q = s.dev.host q) ∧
        t.dev.planner.queue = [] ∧ t.dev.planner.ramp = none ∧ t.dev.planner.plans = [] ∧
        t.dev.planner.bars = PerPort.all 0 ∧ t.dev.planner.hold = 0 ∧ t.dev.planner.guard = 0 ∧
        t.dev.planner.markPending = false ∧ t.dev.planner.context = none ∧
        t.dev.planner.nominal = s.dev.planner.nominal ∧ t.dev.planner.applied = s.dev.planner.applied ∧
        t.dev.planner.lastChange = s.dev.planner.lastChange ∧ t.dev.motion = [] ∧ t.dev.link.fence = none ∧
        t.dev.link.lastTrailer = s.dev.link.lastTrailer ∧ t.dev.link.nonFresh = s.dev.link.nonFresh ∧
        t.dev.composing = s.dev.composing ∧ t.dev.link.sending = s.dev.link.sending ∧
        t.dev.cal = s.dev.cal ∧ t.dev.now = s.dev.now ∧ t.dev.ctl.output = s.dev.ctl.output ∧
        (∀ m, t.dev.port m =
          { s.dev.port m with
            pendingFsync := none, expectations := [], filling := none, badPeriods := 0, goodRun := 0, stallAge := 0,
            allowance := .available,
            state := if (s.dev.port m).state = .stalled then .linked else (s.dev.port m).state }) ∧
        t.dev.probeResult = s.dev.probeResult ∧ t.dev.composePoint = s.dev.composePoint ∧
        t.dev.planner.captureSelect = s.dev.planner.captureSelect ∧
        (let busy := s.dev.composing ≠ none ∨ s.dev.link.sending ≠ none ∨
            ∃ r b, s.dev.link.pending = some r ∧ r.outcome = .composing b
        let now := s.dev.now
        let entered := s.dev.events.raise now .modeChanged (EventDetail.ofPeriod s.dev.currentPeriod (some 4))
        let abandoned := match s.dev.planner.context with
          | some c => entered.raise now .handoffAbandoned (EventDetail.ofPort c.dest (some s.dev.period) (some 2))
          | none => entered
        let cut := match s.dev.link.fence with
          | some k => abandoned.raise now .fenceDone (EventDetail.ofPeriod (some k) (some 1))
          | none => abandoned
        (busy → t.dev.events = cut ∧
          t.dev.planner.state = (match s.dev.planner.context with
            | some _ => some .steady
            | none => s.dev.planner.state) ∧
          t.dev.planner.roles = (match s.dev.planner.context with
            | some c => s.dev.planner.roles.set c.dest
              (if (s.dev.port c.dest).hasLink then s.dev.standbyRole c.dest else .cold)
            | none => s.dev.planner.roles) ∧
          (∀ r cause, s.dev.link.pending = some r → r.outcome = .skipped cause → t.dev.link.pending = none) ∧
          t.dev.slots = s.dev.slots.map fun x =>
            if x.state = .filling ∨ x.state = .ready then Slot.freed x.id else x) ∧
        (¬ busy → t.dev.events = cut.raise now .modeChanged (EventDetail.ofPeriod none (some 2))) ∧
        (¬ busy → t.dev.mode = .standby ∧ t.dev.ctl.session = none ∧ t.dev.planner.state = none ∧
            (∀ m, t.dev.role m = .none) ∧ t.dev.slots = Device.freeSlots ∧ t.dev.buffers = Device.freeBuffers ∧
            t.dev.probe = none ∧ t.dev.link.pending = none) ∧
        (busy → t.dev.mode = .stopping ∧ t.dev.ctl.session = s.dev.ctl.session ∧ t.dev.buffers = s.dev.buffers ∧
            t.dev.probe = s.dev.probe ∧ (∀ x ∈ t.dev.slots, x.state = .free ∨ x.state = .held) ∧
            (∀ r b, s.dev.link.pending = some r → r.outcome = .composing b → t.dev.link.pending = some r)))) ∧
    exec .drainEnd s = .next
      (if s.dev.mode = .stopping ∧ s.dev.composing = none ∧ s.dev.link.pending = none ∧ s.dev.link.sending = none then
        s.withDevice (Device.raise
          { s.dev with
            ctl := { s.dev.ctl with mode := .standby, session := none }
            planner := { s.dev.planner with roles := PerPort.all .none, state := none, context := none }
            slots := Device.freeSlots
            buffers := Device.freeBuffers
            probe := none }
          .modeChanged (EventDetail.ofPeriod none (some 2)))
      else s)

/-- R58 to R61, R63 to R67, R73, R77: stage 3 of a planning on the state after stages 1 and 2. In STEADY with the ACTIVE
port LINKED and neither hold nor guard, the up destination, else the down one, the longest, begins PREPARE as DEST with
HANDOFF_STARTED; with no destination, or a hold or guard, nothing; with it STALLED the fallback choice becomes ACTIVE.
In PREPARE and PROBE the reversal abandons, and PREPARE otherwise counts on below its limit and times out at it. In
PROBE the start check is made with no probe in flight, and where none is then in flight, without a hold, the deferral
count rises, and at its limit BLEND begins at step 1 with a skipped residual record. With a probe in flight the same two
steps are made where its completion waits to be taken, `met` (R78, R92), and otherwise nothing changes (model's reading:
assumption log 31). In BLEND the step rises to N_b, and then the DEST becomes ACTIVE and the STEADY evaluation follows.
In NO_SOURCE the preferred candidate becomes ACTIVE. Then the applied zoom of each state, and the sync set: the ACTIVE
and DEST ports and each WARM port whose divisor divides k, in ascending number. -/
def Obligations.EvaluationOfAPlanning : Prop :=
  ∀ (d : Device) (k : Nat) (run : Option Nat) (met : Bool),
    let z := d.planner.nominal
    let lower := fun n => (d.calOf n).lower
    let base := fun n => (d.calOf n).base
    (∀ a, d.role a = .active → (∀ n, d.role n = .active → n = a) →
      let up := fun n => d.isCandidate n = true ∧ base a < base n ∧ d.upOf n ≤ z
      let down := fun n => d.isCandidate n = true ∧ base n < base a ∧ lower n ≤ z
      let longest := fun (set : PortId → Prop) (n : PortId) => set n ∧ ∀ m, set m → m ≠ n →
        base m < base n ∨ base m = base n ∧ (lower n < lower m ∨ lower n = lower m ∧ n.toNat < m.toNat)
      let begun := fun (n : PortId) (dir : Direction) (reason : Nat) => Device.raise
        { d with planner := { d.planner with
            roles := d.planner.roles.set n .dest
            state := some .prepare
            context := some
              { dest := n, direction := dir, prepared := 0, elapsed := 0, deferral := 0, residual := none, step := 0 } } }
        .handoffStarted { port := some n, requestId := run, period := some k, reason := some reason, zooms := none }
      (d.planner.state = some .steady → (d.port a).state = .linked →
        (d.planner.hold = 0 → d.planner.guard = 0 →
          (∀ n, longest up n → d.evaluate k run met = begun n .up 0) ∧
          (∀ n, (∀ m, ¬ up m) → z < d.downOf a → longest down n → d.evaluate k run met = begun n .down 1)) ∧
        ((∀ m, ¬ up m) → (d.downOf a ≤ z ∨ ∀ m, ¬ down m) → d.evaluate k run met = d) ∧
        (0 < d.planner.hold ∨ 0 < d.planner.guard → d.evaluate k run met = d)) ∧
      (let rested : Role := if (d.port a).hasLink then d.standbyRole a else .cold
      let handed := fun (n : PortId) (reason : ChangeReason) => Device.raise
        { (if rested = .cold ∧ d.mode = .streaming then d.freeUnheld a else d) with planner := { d.planner with
            roles := (d.planner.roles.set a rested).set n .active
            state := some .steady
            context := none
            lastChange := some { old := some a, new := n, reason := reason, period := k } } }
        .handoffDone (EventDetail.ofPort n (some k) (some (match reason with
          | .blend => 0 | .forced => 1 | .fallback => 2)))
      (d.planner.state = some .steady → (d.port a).state = .stalled →
        (d.fallbackChoice = none → d.evaluate k run met = d) ∧
        ∀ n, d.fallbackChoice = some n → d.evaluate k run met = handed n .fallback) ∧
      ∀ c, d.planner.context = some c →
        let with_ := fun (st : HandoffState) (c' : HandoffContext) =>
          { d with planner := { d.planner with state := some st, context := some c' } }
        (d.planner.state = some .blend → c.step < d.ctl.handoff.blendLength →
          d.evaluate k run met = with_ .blend { c with step := c.step + 1 }) ∧
        (d.planner.state = some .blend → d.ctl.handoff.blendLength ≤ c.step →
          d.evaluate k run met = (handed c.dest .blend).evaluate k run met) ∧
        (d.planner.state = some .probe →
          ¬ (match c.direction with | .up => z < d.upOf c.dest | .down => d.downOf a ≤ z) →
          let started := d.probeCheck (max z (lower a))
          let arrived := d.probe ≠ none ∧ met = true
          (started.probe ≠ none → ¬ arrived → d.evaluate k run met = started) ∧
          (started.probe = none ∨ arrived → 0 < d.planner.hold → d.evaluate k run met = d) ∧
          (started.probe = none ∨ arrived → d.planner.hold = 0 → c.deferral + 1 < d.ctl.handoff.deferralLimit →
            d.evaluate k run met = with_ .probe { c with deferral := c.deferral + 1 }) ∧
          (started.probe = none ∨ arrived → d.planner.hold = 0 → d.ctl.handoff.deferralLimit ≤ c.deferral + 1 →
            1 ≤ d.ctl.handoff.blendLength →
            d.evaluate k run met = with_ .blend
              { c with deferral := c.deferral + 1, step := 1,
                       residual := some { rx := 0, ry := 0, score := 0, accepted := .skipped } }))) ∧
      (∀ c, d.planner.context = some c →
        let rest : Role := if (d.port c.dest).hasLink then d.standbyRole c.dest else .cold
        let freed := if rest = .cold ∧ d.mode = .streaming then d.freeUnheld c.dest else d
        let back := match c.direction with
          | .up => z < d.upOf c.dest
          | .down => d.downOf a ≤ z
        (d.planner.state = some .prepare ∨ d.planner.state = some .probe → back →
          d.evaluate k run met = Device.raise
            { freed with planner := { d.planner with
                roles := d.planner.roles.set c.dest rest, state := some .steady, context := none } }
            .handoffAbandoned (EventDetail.ofPort c.dest (some k) (some 0))) ∧
        (d.planner.state = some .prepare → ¬ back → c.elapsed + 1 < d.ctl.handoff.prepareLimit →
          d.evaluate k run met =
            { d with planner := { d.planner with context := some { c with elapsed := c.elapsed + 1 } } }) ∧
        (d.planner.state = some .prepare → ¬ back → d.ctl.handoff.prepareLimit ≤ c.elapsed + 1 →
          d.evaluate k run met = Device.raise
            { freed with planner := { d.planner with
                roles := d.planner.roles.set c.dest rest, state := some .steady, context := none,
                bars := d.planner.bars.set c.dest d.ctl.handoff.backoff } }
            .handoffAbandoned (EventDetail.ofPort c.dest (some k) (some 1))) ∧
        (d.planner.state = some .blend → d.recomputeApplied =
          { d with planner := { d.planner with applied := max z (max (lower a) (lower c.dest)) } })) ∧
      (d.planner.state = some .steady ∨ d.planner.state = some .prepare ∨ d.planner.state = some .probe →
        d.recomputeApplied = { d with planner := { d.planner with applied := max z (lower a) } })) ∧
    (d.planner.state = some .noSource →
      d.recomputeApplied = { d with planner := { d.planner with applied := z } } ∧
      (d.preferredCandidate = none → d.evaluate k run met = d) ∧
      ∀ n, d.preferredCandidate = some n → d.evaluate k run met = Device.raise
        { d with planner := { d.planner with
            roles := d.planner.roles.set n .active
            state := some .steady
            context := none
            lastChange := some { old := none, new := n, reason := .fallback, period := k } } }
        .handoffDone (EventDetail.ofPort n (some k) (some 2))) ∧
    (∀ m, m ∈ d.syncSet k ↔ d.role m = .active ∨ d.role m = .dest ∨
      d.role m = .warm ∧ ∃ c, (d.port m).config = some c ∧ k % c.divisor = 0) ∧
    (d.syncSet k).Pairwise fun m n => m.toNat < n.toNat

/-- R56, R57, R68, R75, R76, R77, R100, R103, R114, R122, R165, R166: a due period start runs one planning: k becomes
the current period; the ramp step, the counts and the pending mark are taken; and plan k joins the tail of the queue
with the nominal, the request id and the mark, and with the hand-off state, the blend step, the applied zoom, the ACTIVE
port and the sync set of its evaluation; where no port resets, the hand-off state, its context, the roles, the bars, the
applied zoom, the slots, the probe and the events are those too, also with ports STALLED. A hold that ends raises
HOLD_EXPIRED with k, and a ramp that completes ZOOM_DONE with its id, k, the nominal and the applied zoom. Each port of
the sync set that has a link has its FSYNC for period k pending, every other port's stands. A STALLED port's stall age
rises up to the dead limit; the rise that brings it there with the allowance AVAILABLE resets the port, and its DOWN
report with cause AUTO_RESET follows the planning. A period start that is not due changes nothing (model's choice:
assumption logs 2 and 17). The model's readings are: the evaluation hears whether a probe completion waits behind it
(assumption log 31), this row plans before the ports advance, in ascending number (log 7), and the automatic reset
leaves stall age 0 and the initial exposure (log 12). -/
def Obligations.PeriodStartWritesPlan : Prop :=
  ∀ s : State,
    (s.dev.PeriodDue → ∀ k, s.dev.ctl.session.map Session.nextPlan = some k →
      ∃ t v, exec .periodStart s = .next t ∧ t.mem = s.mem ∧ t.pending = s.pending ∧ t.freeIndex = s.freeIndex ∧
        t.dev.ctl = { s.dev.ctl with session := s.dev.ctl.session.map fun x => { x with current := k, nextPlan := k + 1 } } ∧
        t.dev.planner.plans = s.dev.planner.plans ++ [v] ∧ v.period = k ∧
        t.dev.planner.nominal = s.dev.planner.rampStep.1.nominal ∧ v.nominal = t.dev.planner.nominal ∧
        t.dev.planner.ramp = s.dev.planner.rampStep.1.ramp ∧ t.dev.planner.queue = s.dev.planner.rampStep.1.queue ∧
        v.requestId = s.dev.planner.rampStep.2.1 ∧ (v.zoomHeld = true ↔ v.applied ≠ v.nominal) ∧
        v.captureMark = s.dev.planner.markPending ∧ t.dev.planner.markPending = false ∧
        t.dev.planner.hold = s.dev.planner.hold - 1 ∧ t.dev.planner.guard = s.dev.planner.guard - 1 ∧
        (∀ m, t.dev.planner.bars.get m = s.dev.planner.bars.get m - 1 ∨
          t.dev.planner.bars.get m = s.dev.ctl.handoff.backoff) ∧
        t.dev.planner.captureSelect = s.dev.planner.captureSelect ∧ t.dev.cal = s.dev.cal ∧
        t.dev.motion = s.dev.motion ∧ t.dev.buffers = s.dev.buffers ∧ t.dev.composing = s.dev.composing ∧
        t.dev.link = s.dev.link ∧ t.dev.composePoint = s.dev.composePoint ∧ t.dev.hostA = s.dev.hostA ∧
        t.dev.hostM = s.dev.hostM ∧
        (∀ m,
          let q := s.dev.port m
          let o := s.dev.ctl.output
          let start := s.dev.sessionStart + k * o.period
          let phase := min (o.period / 2) ((o.exposureRef - q.newestExposure) / 2)
          let resets := q.state = .stalled ∧ q.allowance = .available ∧ q.stallAge + 1 = s.dev.ctl.handoff.deadLimit
          (∀ c, q.config = some c → m ∈ v.syncSet → q.state = .linked ∨ q.state = .stalled → ¬ resets →
            (t.dev.port m).pendingFsync = some
              { period := k, issue := start + 100 + phase,
                deadline := start + min (o.latency * o.period - o.guard) (max ((o.period + 3) / 4) c.deadline) }) ∧
          (m ∉ v.syncSet ∨ q.state ≠ .linked ∧ q.state ≠ .stalled → ¬ resets →
            (t.dev.port m).pendingFsync = q.pendingFsync) ∧
          (q.state = .stalled → ¬ resets → (t.dev.port m).state = .stalled ∧
            (t.dev.port m).stallAge = min s.dev.ctl.handoff.deadLimit (q.stallAge + 1)) ∧
          (q.state ≠ .stalled → (t.dev.port m).state = q.state ∧ (t.dev.port m).stallAge = q.stallAge) ∧
          (resets → (t.dev.port m).state = .resetting ∧ (t.dev.port m).allowance = .spent ∧
            (t.dev.port m).stallAge = 0 ∧ (t.dev.port m).since = s.dev.now ∧ (t.dev.port m).pendingFsync = none)) ∧
        (let counted : Device :=
          { s.dev with
            ctl := t.dev.ctl
            planner := { s.dev.planner.rampStep.1 with
              bars := s.dev.planner.bars.map (· - 1), hold := s.dev.planner.hold - 1, guard := s.dev.planner.guard - 1 }
            events :=
              if s.dev.planner.hold = 1 then
                s.dev.events.raise s.dev.now .holdExpired (EventDetail.ofPeriod (some k) none)
              else s.dev.events }
        let e := counted.evaluate k s.dev.planner.rampStep.2.1 (decide (Instr.probeComplete ∈ s.pending))
        v.applied = e.recomputeApplied.planner.applied ∧ v.active = e.activePort ∧ v.syncSet = e.syncSet k ∧
          (∀ st, e.planner.state = some st → v.state = st) ∧
          (∀ c, e.planner.state = some .blend → e.planner.context = some c → v.blend = some (e.blendStep c)) ∧
          (e.planner.state ≠ some .blend → v.blend = none) ∧
          (let raised :=
            if s.dev.planner.rampStep.2.2 = true then
              e.events.raise s.dev.now .zoomDone
                { port := none, requestId := s.dev.planner.rampStep.2.1, period := some k, reason := none,
                  zooms := some (v.nominal, v.applied) }
            else e.events
          let o := s.dev.ctl.output
          let start := s.dev.sessionStart + k * o.period
          let requested := fun m : PortId =>
            let q := e.port m
            if m ∈ v.syncSet ∧ (q.state = .linked ∨ q.state = .stalled) then
              let fsync : Expectation :=
                { period := k,
                  issue := start + 100 + min (o.period / 2) ((o.exposureRef - q.newestExposure) / 2),
                  deadline := start + min (o.latency * o.period - o.guard)
                    (max ((o.period + 3) / 4) ((q.config.map PortConfig.deadline).getD 0)) }
              { q with pendingFsync := some fsync }
            else q
          let planned : Device :=
            { e with
              planner := { e.recomputeApplied.planner with plans := s.dev.planner.plans ++ [v], markPending := false }
              ports := { p0 := requested .p0, p1 := requested .p1, p2 := requested .p2, p3 := requested .p3 }
              events := raised }
          let advance := fun (d : Device) (m : PortId) =>
            let q := d.port m
            if q.state = .stalled ∧ q.allowance = .available ∧ q.stallAge + 1 = s.dev.ctl.handoff.deadLimit then
              (Device.onPort
                { d with slots := d.slots.map fun x =>
                    if x.owner = some m ∧ x.unheld = true then Slot.freed x.id else x } m fun x =>
                { x with
                  state := .resetting, since := s.dev.now,
                  newestExposure := (q.config.map PortConfig.exposure).getD q.newestExposure,
                  lanes := none, pendingFsync := none, expectations := [], filling := none, badPeriods := 0,
                  goodRun := 0, stallAge := 0, allowance := .spent }).reportLoss m (.down .autoReset)
            else if q.state = .stalled then
              d.onPort m fun x => { x with stallAge := min s.dev.ctl.handoff.deadLimit (x.stallAge + 1) }
            else d
          t.dev = PortId.all.foldl advance planned ∧
            ((∀ m, ¬ ((s.dev.port m).state = .stalled ∧ (s.dev.port m).allowance = .available ∧
                (s.dev.port m).stallAge + 1 = s.dev.ctl.handoff.deadLimit)) →
              t.dev.planner.roles = e.planner.roles ∧ t.dev.planner.state = e.planner.state ∧
              t.dev.planner.context = e.planner.context ∧ t.dev.planner.lastChange = e.planner.lastChange ∧
              t.dev.planner.bars = e.planner.bars ∧ t.dev.planner.applied = v.applied ∧
              t.dev.slots = e.slots ∧ t.dev.probe = e.probe ∧ t.dev.probeResult = e.probeResult ∧
              t.dev.events = raised)))) ∧
    (¬ s.dev.PeriodDue → exec .periodStart s = .next s)

/-- R47, R57, R63, R65, R67, R69, R82, R100, R103: each row that names one outcome of a planning is the due period start
in which that outcome comes (model's reading: assumption log 6), and changes nothing where the period start is not due
or has another outcome. What the outcomes leave, where no port resets: HOLD_EXPIRED and ZOOM_DONE raised; at a timeout
the hand-off ended, the DEST barred and HANDOFF_ABANDONED raised; at a skip BLEND at step 1 with a skipped residual
record; at a commit the DEST ACTIVE, the last change recorded and HANDOFF_DONE raised; and in STEADY with the ACTIVE
port STALLED the fallback choice ACTIVE, the last change recorded and HANDOFF_DONE raised (R61). Raised means at both
ports: a record pending before counts one more and keeps its detail, any other counts 1 and takes the new detail. A skip
with a probe in flight comes where its completion waits, and that completion is then discarded, its record showing taken
= no (R78, R92; model's reading: assumption log 31). -/
def Obligations.PlanningRowsHaveTheirOutcomes : Prop :=
  (∀ (s : State) (m : PortId),
      let row := fun (i : Instr) (outcome : Prop) =>
        (s.dev.PeriodDue → outcome → ∃ t, exec i s = .next t ∧ exec .periodStart s = .next t) ∧
          (¬ s.dev.PeriodDue ∨ ¬ outcome → exec i s = .next s)
      let before := s.dev.beforeEvaluation
      row .rampComplete ((∃ r, s.dev.planner.ramp = some r ∧ r.length ≤ r.step + 1) ∨
        s.dev.planner.ramp = none ∧ ∃ e rest, s.dev.planner.queue = e :: rest ∧ e.length = 0) ∧
      row .holdExpired (s.dev.planner.hold = 1) ∧
      row .guardExpiry (s.dev.planner.guard = 1) ∧
      row (.barExpiry m) (s.dev.planner.bars.get m = 1) ∧
      row .prepareTimeout (∃ c, s.dev.planner.state = some .prepare ∧ s.dev.planner.context = some c ∧
        before.reversed c = false ∧ s.dev.ctl.handoff.prepareLimit ≤ c.elapsed + 1) ∧
      row .probeSkip (∃ c, s.dev.planner.state = some .probe ∧ s.dev.planner.context = some c ∧
        before.reversed c = false ∧ before.planner.hold = 0 ∧
        (s.dev.probe = none ∧ before.probePair = none ∨ s.dev.probe ≠ none ∧ Instr.probeComplete ∈ s.pending) ∧
        s.dev.ctl.handoff.deferralLimit ≤ c.deferral + 1) ∧
      row .blendCommit (∃ c, s.dev.planner.state = some .blend ∧ s.dev.planner.context = some c ∧
        s.dev.ctl.handoff.blendLength ≤ c.step)) ∧
  ∀ (s t : State) (m : PortId) (c : HandoffContext), s.dev.PeriodDue → s.dev.events.coherent → s.dev.RolesCoherent →
    (∀ n, ¬ ((s.dev.port n).state = .stalled ∧ (s.dev.port n).allowance = .available ∧
      (s.dev.port n).stallAge + 1 = s.dev.ctl.handoff.deadLimit)) → exec .periodStart s = .next t →
    let k := some s.dev.nextPeriod
    let raised := fun (kind : EventKind) (x : EventDetail) =>
      ∀ q, ∃ old ∈ (s.dev.eventSet q).records, ∃ r ∈ (t.dev.eventSet q).records,
        old.kind = kind ∧ r.kind = kind ∧ r.pending = true ∧
          (old.pending = true → r.count = min 255 (old.count + 1) ∧ r.detail = old.detail) ∧
          (old.pending = false → r.count = 1 ∧ r.detail = some x)
    (s.dev.planner.rampStep.2.2 = true → t.dev.planner.ramp = none ∧
      raised .zoomDone
        { port := none, requestId := s.dev.planner.rampStep.2.1, period := k, reason := none,
          zooms := some (t.dev.planner.nominal, t.dev.planner.applied) }) ∧
    (s.dev.planner.hold = 1 → t.dev.planner.hold = 0 ∧ raised .holdExpired (EventDetail.ofPeriod k none)) ∧
    (s.dev.planner.guard = 1 → t.dev.planner.guard = 0) ∧
    (s.dev.planner.bars.get m = 1 → s.dev.planner.state ≠ some .prepare → t.dev.planner.bars.get m = 0) ∧
    (∀ n, s.dev.planner.state = some .steady → s.dev.role m = .active → (s.dev.port m).state = .stalled →
      s.dev.beforeEvaluation.fallbackChoice = some n →
      t.dev.role n = .active ∧ t.dev.role m = s.dev.standbyRole m ∧ t.dev.planner.state = some .steady ∧
        t.dev.planner.lastChange = some { old := some m, new := n, reason := .fallback, period := s.dev.nextPeriod } ∧
        raised .handoffDone (EventDetail.ofPort n k (some 2))) ∧
    (s.dev.planner.context = some c →
      (s.dev.prepareTimesOut = true → t.dev.planner.state = some .steady ∧ t.dev.planner.context = none ∧
        t.dev.planner.bars.get c.dest = s.dev.ctl.handoff.backoff ∧ t.dev.role c.dest = s.dev.standbyRole c.dest ∧
        raised .handoffAbandoned (EventDetail.ofPort c.dest k (some 1))) ∧
      (s.dev.probeSkips s.completionWaits = true → 1 ≤ s.dev.ctl.handoff.blendLength →
        t.dev.planner.state = some .blend ∧ ∃ c', t.dev.planner.context = some c' ∧ c'.dest = c.dest ∧ c'.step = 1 ∧
          c'.residual = some { rx := 0, ry := 0, score := 0, accepted := .skipped } ∧
        t.dev.probe = s.dev.probe ∧
        ∀ u, s.dev.probe ≠ none → exec .probeComplete t = .next u → u.dev.planner = t.dev.planner ∧
          u.dev.probe = none ∧ u.dev.probeResult.map ProbeResult.taken = some false) ∧
      (s.dev.blendCommits = true → t.dev.role c.dest = .active ∧
        t.dev.planner.lastChange =
          some { old := s.dev.activePort, new := c.dest, reason := .blend, period := s.dev.nextPeriod } ∧
        raised .handoffDone (EventDetail.ofPort c.dest k (some 0))))

/-- R122, R108, R54, R70 to R72: the due period start that brings a STALLED port with its allowance AVAILABLE to the
dead limit resets the port: RESETTING from now with the allowance SPENT, health counts 0, the newest exposure the
initial one, its unheld slots freed; and it reports DOWN with cause AUTO_RESET, which the View Planner takes by the
port's role, with that report's events and period, and which leaves role COLD; its planning follows (model's reading:
assumption log 7). The health counts and the newest exposure are R108's (model's reading: assumption log 12). Otherwise
the row changes nothing (model's choice: assumption log 2). -/
def Obligations.AutomaticResetAtTheDeadLimit : Prop :=
  ∀ (m : PortId) (s : State),
    let due := s.dev.PeriodDue ∧ (s.dev.port m).state = .stalled ∧ (s.dev.port m).allowance = .available ∧
      (s.dev.port m).stallAge + 1 = s.dev.ctl.handoff.deadLimit
    (¬ due → exec (.autoReset m) s = .next s) ∧
    (due → ∀ c, (s.dev.port m).config = some c →
      exec (.autoReset m) s = .next (s.withDevice
        ((Device.onPort
          { s.dev with
            ctl := { s.dev.ctl with session := s.dev.ctl.session.map fun x =>
              { x with current := s.dev.nextPeriod, nextPlan := s.dev.nextPeriod } }
            slots := s.dev.slots.map fun x =>
              if x.owner = some m ∧ x.unheld = true then Slot.freed x.id else x } m fun q =>
          { q with
            state := .resetting, since := s.dev.now, newestExposure := c.exposure, lanes := none, pendingFsync := none,
            expectations := [], filling := none, badPeriods := 0, goodRun := 0, stallAge := 0,
            allowance := .spent }).reportLoss m (.down .autoReset)))) ∧
    (due → s.dev.RolesCoherent → ∀ c, (s.dev.port m).config = some c →
      ∃ t, exec (.autoReset m) s = .next t ∧ t.mem = s.mem ∧ t.pending = s.pending ∧ t.freeIndex = s.freeIndex ∧
        t.dev.currentPeriod = some s.dev.nextPeriod ∧ t.dev.nextPeriod = s.dev.nextPeriod ∧
        t.dev.planner.plans = s.dev.planner.plans ∧ t.dev.planner.nominal = s.dev.planner.nominal ∧
        t.dev.port m =
          { s.dev.port m with
            state := .resetting, since := s.dev.now, newestExposure := c.exposure, lanes := none, pendingFsync := none,
            expectations := [], filling := none, badPeriods := 0, goodRun := 0, stallAge := 0, allowance := .spent } ∧
        t.dev.role m = .cold ∧ (∀ x ∈ t.dev.slots, x.owner = some m → x.state ≠ .filling ∧ x.state ≠ .ready) ∧
        t.dev.cal = s.dev.cal ∧ t.dev.motion = s.dev.motion ∧ t.dev.buffers = s.dev.buffers ∧ t.dev.link = s.dev.link)

/-! ### The registration probe (Chapter 5) -/

/-- R86, R87: the chosen offset is the candidate of least cost; of equals the smallest |rx| + |ry|, then the smallest
ry, then the smallest rx; the best cost is its cost. -/
def Obligations.ProbeChoosesTheLeastCost : Prop :=
  ∀ cost : Int × Int → Nat,
    let candidate := fun x : Int => -16 ≤ x ∧ x ≤ 16 ∧ x % 2 = 0
    let q := chosenOffset cost
    candidate q.2.1 ∧ candidate q.2.2 ∧ q.1 = cost q.2 ∧
      ∀ rx ry, candidate rx → candidate ry → (rx, ry) ≠ q.2 →
        q.1 < cost (rx, ry) ∨ q.1 = cost (rx, ry) ∧
          (q.2.1.natAbs + q.2.2.natAbs < rx.natAbs + ry.natAbs ∨
            q.2.1.natAbs + q.2.2.natAbs = rx.natAbs + ry.natAbs ∧ (q.2.2 < ry ∨ q.2.2 = ry ∧ q.2.1 < rx))

/-- R85, R86, R88, R89, R66, R131: PROBE_COMPLETE measures from the two held frames, releases both slots, writes the
last result record and leaves the probe IDLE; in PROBE with the same DEST the residual record is filled, (0, 0) when
rejected, and the state becomes BLEND at step 0; in any other case the hand-off is unchanged. The cost of an offset is
the 4096th part of the summed differences of the two 64×64 patches at the centre of the output, the source rendered from
the ACTIVE window without residual, the candidate from the DEST window with the offset; the contrast is the source's
greatest sample minus its least. With no probe in flight it changes nothing, and a frame beyond frame memory faults by
name (model's choices: assumption logs 2 and 26). The applied zoom is left until the next planning, even below the DEST's
lower bound (model's choice: assumption log 41). -/
def Obligations.ProbeCompletes : Prop :=
  ∀ s : State,
    (s.dev.probe = none → exec .probeComplete s = .next s) ∧
    (∀ c, s.dev.probe = some c → s.dev.probeInMemory c = false → exec .probeComplete s = .fault .frameMemoryRange) ∧
    ∀ c, s.dev.probe = some c → s.dev.probeInMemory c = true →
      let q := s.dev.measure s.mem c
      let best := chosenOffset (s.dev.probeCost s.mem c)
      let result := fun taken : Bool =>
        { activePort := c.activePort, destPort := c.destPort, period := c.period, rx := best.2.1, ry := best.2.2,
          bestCost := best.1, contrast := q.contrast, score := q.score, accepted := q.accepted, taken := taken,
          time := s.dev.now : ProbeResult }
      let released := (s.dev.releaseSlot c.activeSlot).releaseSlot c.destSlot
      let out := s.dev.outputSize
      let place := fun (slot : Nat) (m : PortId) (rx ry : Int) (i j : Nat) =>
        renderFrame s.mem slot (s.dev.frameSize m) (s.dev.window m c.zoom c.ex c.ey rx ry).window out .y
          (out.1 / 2 - 32 + i) (out.2 / 2 - 32 + j)
      let source := place c.activeSlot c.activePort 0 0
      (∀ rx ry, s.dev.probeCost s.mem c (rx, ry) =
        ((List.range 64).map fun j => ((List.range 64).map fun i =>
          ((source i j : Int) - place c.destSlot c.destPort rx ry i j).natAbs).sum).sum / 4096) ∧
      (∀ hi lo, (∃ i j, i < 64 ∧ j < 64 ∧ source i j = hi) → (∃ i j, i < 64 ∧ j < 64 ∧ source i j = lo) →
        (∀ i j, i < 64 → j < 64 → lo ≤ source i j ∧ source i j ≤ hi) → q.contrast = hi - lo) ∧
      q.score = (if q.contrast < 16 then 0 else 255 - min 255 (4 * best.1)) ∧
      (q.accepted = true ↔ s.dev.ctl.handoff.probeThreshold ≤ q.score) ∧
      (∀ h, s.dev.planner.state = some .probe → s.dev.planner.context = some h → h.dest = c.destPort →
        s.dev.mode = .streaming →
        let residual : Residual :=
          if q.accepted then { rx := best.2.1, ry := best.2.2, score := q.score, accepted := .yes }
          else { rx := 0, ry := 0, score := q.score, accepted := .no }
        exec .probeComplete s = .next (s.withDevice
          { released with
            planner :=
              { s.dev.planner with
                state := some .blend, context := some { h with residual := some residual, step := 0 } }
            probe := none
            probeResult := some (result true) })) ∧
      ((∀ h, s.dev.planner.state = some .probe → s.dev.planner.context = some h → h.dest = c.destPort →
          s.dev.mode ≠ .streaming) →
        exec .probeComplete s = .next (s.withDevice
          { released with probe := none, probeResult := some (result false) }))

/-! ### Composition and output (Chapter 9) -/

/-- R143 to R145, R152, R132, R130: slot selection for a plan by Table 9-4; and the due compose deadline of the head
plan k: the plan leaves the queue, the pending record is set to k with a copy of it, the compose point becomes k + 1 and
the supersession check is made for every port. The composition is skipped BUSY while one is in flight and NO_FRAME
without a usable frame; else it starts in the lowest-numbered FREE buffer with its trailer, its slots held. The
trailer's fields come from the plan, the selection, the capture centre of the ACTIVE slot (of the DEST slot when that
alone is used), the shift looked up for it, and the windows of the slots that are rendered. A window is the Geometry
Unit's for the port's frame size, the output size, the port's calibration record, and the zoom, shift and residual asked
with (R19, R20). A compose deadline that is not due changes nothing (assumption logs 2 and 17). -/
def Obligations.ComposeDeadlineTakesThePlan : Prop :=
  (∀ (d : Device) (plan : ViewPlan),
      let selected := fun (x y : Option (Slot × Bool)) (alpha : Nat) (forced : Bool) =>
        some ({ active := x, dest := y, alpha := alpha, forced := forced } : Selection)
      (plan.active = none → d.select plan = none) ∧
      ∀ a, plan.active = some a →
        (plan.blend = none → d.pair a plan.period = none → d.select plan = none) ∧
        (∀ x, plan.blend = none → d.pair a plan.period = some x → d.select plan = selected (some x) none 0 false) ∧
        ∀ b, plan.blend = some b →
          (d.pair a plan.period = none → d.pair b.dest plan.period = none → d.select plan = none) ∧
          (∀ x y, d.pair a plan.period = some x → d.pair b.dest plan.period = some y →
            d.select plan = selected (some x) (some y) b.alpha false) ∧
          (∀ x, d.pair a plan.period = some x → d.pair b.dest plan.period = none →
            d.select plan = selected (some x) none 0 true) ∧
          (∀ y, d.pair a plan.period = none → d.pair b.dest plan.period = some y →
            d.select plan = selected none (some y) 256 true)) ∧
  (∀ (d : Device) (plan : ViewPlan) (sel : Selection) (centre : Nat),
      (∀ x, sel.active = some x → x.1.centre = some centre) →
      (∀ y, sel.active = none → sel.dest = some y → y.1.centre = some centre) → sel.active ≠ none ∨ sel.dest ≠ none →
      let t := d.assembleTrailer plan sel
      let shift := d.lookup centre
      let wa := fun a => d.window a plan.applied shift.ex shift.ey 0 0
      let wd := fun b : BlendStep => d.window b.dest plan.applied shift.ex shift.ey b.rx b.ry
      let usedA := fun w : WindowAnswer => ∃ a, plan.active = some a ∧ sel.active ≠ none ∧ w = wa a
      let usedD := fun w : WindowAnswer => ∃ b, plan.blend = some b ∧ sel.dest ≠ none ∧ w = wd b
      t.period = plan.period ∧ t.nominal = plan.nominal ∧ t.applied = plan.applied ∧ t.requestId = plan.requestId ∧
        t.state = plan.state ∧ t.active = plan.active ∧ t.alpha = sel.alpha ∧
        t.activePeriod = sel.active.bind (fun x => x.1.period) ∧ t.destPeriod = sel.dest.bind (fun y => y.1.period) ∧
        (∀ b, plan.blend = some b → t.dest = some b.dest ∧ t.rx = b.rx ∧ t.ry = b.ry ∧
          t.flags.lowConfidence = b.lowConfidence ∧ t.flags.probeSkipped = b.probeSkipped) ∧
        (plan.blend = none → t.dest = none ∧ t.rx = 0 ∧ t.ry = 0 ∧ t.flags.lowConfidence = false ∧
          t.flags.probeSkipped = false) ∧
        t.ex = shift.ex ∧ t.ey = shift.ey ∧ t.centre = centre ∧
        (∀ w, t.activeWindow = some w ↔ ∃ x, usedA x ∧ w = x.window) ∧
        (∀ w, t.destWindow = some w ↔ ∃ x, usedD x ∧ w = x.window) ∧
        t.flags.zoomHeld = plan.zoomHeld ∧ t.flags.captureMark = plan.captureMark ∧
        (t.flags.lateA = true ↔ ∃ x, sel.active = some x ∧ x.2 = true) ∧
        (t.flags.lateD = true ↔ ∃ y, sel.dest = some y ∧ y.2 = true) ∧ t.flags.alphaForced = sel.forced ∧
        (t.flags.edge = true ↔ ∃ w, (usedA w ∨ usedD w) ∧ w.edge = true) ∧
        (t.flags.floorFlag = true ↔ ∃ w, (usedA w ∨ usedD w) ∧ w.floorFlag = true) ∧
        t.flags.noMotion = shift.noMotion ∧ t.flags.stale = shift.stale ∧ t.flags.repeated = false ∧
        t.flags.grey = false) ∧
  (∀ (d : Device) (m : PortId) (c : PortConfig) (size : Nat × Nat) (zoom : Nat) (ex ey rx ry : Int),
      (d.port m).config = some c → d.ctl.output.size = some size →
      d.window m zoom ex ey rx ry = WindowInputs.answer
        { wm := c.width, hm := c.height, wo := size.1, ho := size.2, base := (d.cal.get m).base,
          trim := (d.cal.get m).trim, cx := (d.cal.get m).cx, cy := (d.cal.get m).cy, zoom := zoom, ex := ex, ey := ey,
          rx := rx, ry := ry }) ∧
  ∀ s : State,
    (s.dev.composeDue = none → exec .composeDeadline s = .next s) ∧
    (∀ plan rest, s.dev.planner.plans = plan :: rest → s.dev.mode = .streaming → s.dev.link.pending = none →
      s.dev.sessionStart + (plan.period + s.dev.ctl.output.latency) * s.dev.ctl.output.period -
        s.dev.ctl.output.guard ≤ s.dev.now →
      let taken := fun (d : Device) (outcome : PendingOutcome) => Device.supersedeAll
        { d with
          planner := { s.dev.planner with plans := rest }
          link := { s.dev.link with pending := some { period := plan.period, plan := plan, outcome := outcome } }
          composePoint := plan.period + 1 }
      (∀ c, s.dev.composing = some c →
        exec .composeDeadline s = .next (s.withDevice (taken s.dev (.skipped .busy)))) ∧
      (s.dev.composing = none → s.dev.select plan = none →
        exec .composeDeadline s = .next (s.withDevice (taken s.dev (.skipped .noFrame)))) ∧
      ∀ sel b, s.dev.composing = none → s.dev.select plan = some sel → s.dev.bufferIn .free = some b →
        let held := (s.dev.holdChosen sel.active).holdChosen sel.dest
        exec .composeDeadline s = .next (s.withDevice (taken
          { held with
            composing := some
              { period := plan.period, buffer := b.id, activeSlot := sel.active.map fun x => x.1.id,
                destSlot := sel.dest.map fun y => y.1.id, alpha := sel.alpha }
            buffers := s.dev.buffers.map fun x =>
              if x.id = b.id then
                { x with state := .composing, period := some plan.period,
                         trailer := some (s.dev.assembleTrailer plan sel) }
              else x }
          (.composing b.id))))

/-- R146, R147: the completion of a composition: its slots are released, its buffer is COMPLETE while the pending record
names it and FREE otherwise, every sample of the picture stands in the buffer's region and every other byte of memory
reads as before; in STOPPING the drain is checked. A sample (R34, R35) is that of the one window rendered, or both blended
at α, each plane rendered from its own plane of the stored frame, the chroma planes with window, frame and grid halved. With
no composition in flight nothing completes, a frame or buffer beyond frame memory faults by name, and where the buffers and
planes lie are the model's choices (assumption logs 2, 26 and 8). -/
def Obligations.CompositionFillsItsBuffer : Prop :=
  (∀ a e alpha : Nat, a ≤ 255 → e ≤ 255 → alpha ≤ 256 →
    blendSample a e alpha = (a * (256 - alpha) + e * alpha + 128) / 256 ∧ blendSample a e alpha ≤ 255 ∧
      blendSample a e 0 = a ∧ blendSample a e 256 = e) ∧
  (∀ (d : Device) (mem : Memory) (c : Composition) (t : Trailer) (pl : Plane) (i j : Nat),
    let half := fun n : Nat => match pl with | .y => n | .u => n / 2 | .v => n / 2
    let first := fun w h : Nat => match pl with | .y => 0 | .u => w * h | .v => w * h + (w / 2) * (h / 2)
    let rendered := fun (slot : Nat) (m : PortId) (w : Window) =>
      let size := d.frameSize m
      renderSample
        (fun col row => (mem.read (slotBase slot + first size.1 size.2 + row * half size.1 + col)).toNat)
        { x0 := half w.x0, y0 := half w.y0, w := half w.w, h := half w.h }
        (half d.outputSize.1, half d.outputSize.2) i j
    (∀ x w a, c.activeSlot = some x → t.activeWindow = some w → t.active = some a → c.destSlot = none →
      d.composedSample mem c t pl i j = rendered x a w) ∧
    (∀ y w b, c.destSlot = some y → t.destWindow = some w → t.dest = some b → c.activeSlot = none →
      d.composedSample mem c t pl i j = rendered y b w) ∧
    ∀ x w a y w' b, c.activeSlot = some x → t.activeWindow = some w → t.active = some a → c.destSlot = some y →
      t.destWindow = some w' → t.dest = some b →
      d.composedSample mem c t pl i j =
        (rendered x a w * (256 - c.alpha) + rendered y b w' * c.alpha + 128) / 256) ∧
  ∀ s : State,
    (s.dev.composing = none → exec .compositionComplete s = .next s) ∧
    (∀ c, s.dev.composing = some c → s.dev.compositionInMemory c = false →
      exec .compositionComplete s = .fault .frameMemoryRange) ∧
    ∀ c b tr, s.dev.composing = some c → s.dev.compositionInMemory c = true → s.mem.wf = true →
      s.dev.buffer? c.buffer = some b → b.trailer = some tr →
      let wo := s.dev.outputSize.1
      let ho := s.dev.outputSize.2
      let at_ := fun (pl : Plane) (i j : Nat) => sampleAddress (bufferBase c.buffer) wo ho pl i j
      let released := (s.dev.releaseOption c.activeSlot).releaseOption c.destSlot
      let named : Bool := match s.dev.link.pending with
        | some r => decide (r.outcome = .composing c.buffer)
        | none => false
      let done : Device :=
        { released with
          composing := none
          buffers := s.dev.buffers.map fun x =>
            if x.id = c.buffer then (if named then { x with state := .complete } else OutputBuffer.freed x.id) else x }
      ∃ mem, exec .compositionComplete s = .next { s with dev := done.drainCheck, mem := mem } ∧
        (∀ pl i j, i < pl.scale wo → j < pl.scale ho →
          Memory.read mem (at_ pl i j) = BitVec.ofNat 8 (s.dev.composedSample s.mem c tr pl i j)) ∧
        ∀ a, a < bufferBase c.buffer ∨ bufferBase c.buffer + pictureBytes wo ho ≤ a →
          Memory.read mem a = Memory.read s.mem a

/-- R156, R149, R150, R151, R153, R157, R169: OUTPUT_FENCE in STREAMING: refused FENCE_BUSY while a fence is
outstanding, otherwise ACCEPTED with the period of the newest plan written, which becomes the outstanding fence's (also
between the two rows of one period start, AUTO_RESET and PERIOD_START: model's choice, assumption log 39). The due
emission start of frame k by the first line of Table 9-5 that applies, with its trailer, OUTPUT_REPEAT, the non-fresh
run and OUTPUT_FROZEN once a run; the due TX done: the buffers, the fence of that period done, and the sending record
emptied. Neither changes anything when not due (assumption logs 2 and 17). Between them the transmit link carries the
samples of the SENDING buffer, or 128 throughout for GREY, and between emissions none (where a buffer's samples lie is the
model's choice: assumption log 8). -/
def Obligations.EmissionsAndTheFence : Prop :=
  (∀ (p : CmdPort) (s : State), s.dev.ctl.resetLow = false → s.dev.mode = .streaming →
      (∀ k, s.dev.link.fence = some k → exec (.outputFence p) s = .next (s.refusedWith p .fenceBusy)) ∧
      ∀ x k, s.dev.link.fence = none → s.dev.ctl.session = some x → x.nextPlan = k + 1 →
        exec (.outputFence p) s = .next (s.answered p { status := .accepted, payload := bytesLE 4 k }
          { s.dev with link := { s.dev.link with fence := some k } })) ∧
  (∀ (s : State) (pl : Plane) (i j : Nat),
      (s.dev.link.sending = none → s.txSample pl i j = none) ∧
      ∀ r, s.dev.link.sending = some r →
        (r.buffer = none → s.txSample pl i j = some 128) ∧
        ∀ b size, r.buffer = some b → s.dev.ctl.output.size = some size →
          s.txSample pl i j = some (Memory.read s.mem (sampleAddress (bufferBase b) size.1 size.2 pl i j))) ∧
  ∀ s : State,
    let start := fun k : Nat => s.dev.sessionStart + (k + s.dev.ctl.output.latency) * s.dev.ctl.output.period
    let streams := s.dev.mode = .streaming ∨ s.dev.mode = .stopping
    let sent := fun (b : Nat) (st : BufferState) =>
      s.dev.buffers.map fun x => if x.id = b then { x with state := st } else x
    let repeats := fun (d : Device) (k cause : Nat) =>
      let run := min 255 (s.dev.link.nonFresh + 1)
      let x := EventDetail.ofPeriod (some k) (some cause)
      let counted : Device := { d.raise .outputRepeat x with link := { d.link with nonFresh := run } }
      if s.dev.ctl.handoff.freezeLimit ≤ run ∧ s.dev.link.frozenReported = false then
        let frozen := counted.raise .outputFrozen x
        { frozen with link := { frozen.link with frozenReported := true } }
      else counted
    ((∀ r, s.dev.link.pending = some r → ¬ streams ∨ s.dev.link.sending ≠ none ∨ s.dev.now < start r.period) →
      exec .emissionStart s = .next s) ∧
    (∀ r, s.dev.link.pending = some r → streams → s.dev.link.sending = none → start r.period ≤ s.dev.now →
      let link := fun (kind : EmissionKind) (b : Option Nat) (tr : Option Trailer) =>
        { s.dev.link with
          pending := none, sending := some { period := r.period, kind := kind, buffer := b }, lastTrailer := tr }
      let cause := match r.outcome with
        | .composing _ => 0
        | .skipped c => c.number
      let grey : Trailer :=
        { period := r.plan.period, activePeriod := none, destPeriod := none, nominal := r.plan.nominal,
          applied := r.plan.applied, active := none, dest := none, alpha := 0, requestId := r.plan.requestId,
          state := r.plan.state, rx := 0, ry := 0,
          flags :=
            { zoomHeld := r.plan.zoomHeld, lateA := false, lateD := false, alphaForced := false, edge := false,
              floorFlag := false, noMotion := false, stale := false, lowConfidence := false, probeSkipped := false,
              repeated := false, grey := true, captureMark := r.plan.captureMark },
          ex := 0, ey := 0, centre := 0, activeWindow := none, destWindow := none }
      let stale := ∀ b x, r.outcome = .composing b → s.dev.buffer? b = some x → x.state ≠ .complete
      (∀ b x, r.outcome = .composing b → s.dev.buffer? b = some x → x.state = .complete →
        exec .emissionStart s = .next (s.withDevice
          { s.dev with
            buffers := sent b .sending
            link := { link .fresh (some b) x.trailer with nonFresh := 0, frozenReported := false } })) ∧
      (∀ x, stale → s.dev.bufferIn .last = some x →
        exec .emissionStart s = .next (s.withDevice (repeats
          { s.dev with
            buffers := sent x.id .sending
            link := link .repeated (some x.id) (x.trailer.map fun tr =>
              { tr with
                period := r.plan.period
                flags := { tr.flags with repeated := true, captureMark := r.plan.captureMark } }) }
          r.period cause))) ∧
      (stale → s.dev.bufferIn .last = none →
        exec .emissionStart s = .next (s.withDevice (repeats
          { s.dev with link := link .grey none (some grey) } r.period cause)))) ∧
    ((∀ r, s.dev.link.sending = some r →
        ¬ streams ∨ s.dev.now < start r.period + s.dev.ctl.output.period - 500) → exec .txDone s = .next s) ∧
    (∀ r, s.dev.link.sending = some r → streams → start r.period + s.dev.ctl.output.period - 500 ≤ s.dev.now →
      let settled := match r.kind, r.buffer with
        | .fresh, some b => s.dev.buffers.map fun x =>
          if x.id = b then { x with state := .last } else if x.state = .last then OutputBuffer.freed x.id else x
        | .repeated, some b => sent b .last
        | _, _ => s.dev.buffers
      let ended : Device := { s.dev with buffers := settled, link := { s.dev.link with sending := none } }
      exec .txDone s = .next (s.withDevice (Device.drainCheck
        (if s.dev.link.fence = some r.period then
          Device.raise { ended with link := { ended.link with fence := none } } .fenceDone
            (EventDetail.ofPeriod (some r.period) (some 0))
        else ended))))

/-- R154, Tables 9-6 and 9-7: the trailer line: each field at its bytes, each flag at its bit, zeros after byte 52, Wo
bytes in all; while an emission runs with a last trailer there is one. -/
def Obligations.TrailerLineLayout : Prop :=
  (∀ t : Trailer,
    let field := fun first width : Nat => (t.bytes.drop first).take width
    let port := fun m : Option PortId => match m with
      | some n => [BitVec.ofNat 8 n.toNat]
      | none => [0xFF]
    let window := fun w : Option Window => match w with
      | some x => bytesLE 2 x.x0 ++ bytesLE 2 x.y0 ++ bytesLE 2 x.w ++ bytesLE 2 x.h
      | none => List.replicate 8 0
    t.bytes.length = 53 ∧ field 0 4 = bytesLE 4 t.period ∧ field 4 4 = bytesLE 4 (t.activePeriod.getD 0) ∧
      field 8 4 = bytesLE 4 (t.destPeriod.getD 0) ∧ field 12 2 = bytesLE 2 t.nominal ∧ field 14 2 = bytesLE 2 t.applied ∧
      field 16 1 = port t.active ∧ field 17 1 = port t.dest ∧ field 18 2 = bytesLE 2 t.alpha ∧
      field 20 1 = bytesLE 1 (t.requestId.getD 0) ∧
      field 21 1 = bytesLE 1 ((if t.requestId.isSome then 1 else 0) + (if t.activePeriod.isSome then 2 else 0) +
        (if t.destPeriod.isSome then 4 else 0)) ∧
      field 22 1 = bytesLE 1 t.state.number ∧ field 23 1 = signedLE 1 t.rx ∧ field 24 1 = signedLE 1 t.ry ∧
      field 25 2 = bytesLE 2 t.flags.bits ∧ field 27 2 = signedLE 2 t.ex ∧ field 29 2 = signedLE 2 t.ey ∧
      field 31 6 = bytesLE 6 t.centre ∧ field 37 8 = window t.activeWindow ∧ field 45 8 = window t.destWindow) ∧
  (∀ f : TrailerFlags,
    f.bits < 2 ^ 13 ∧ f.bits.testBit 0 = f.zoomHeld ∧ f.bits.testBit 1 = f.lateA ∧ f.bits.testBit 2 = f.lateD ∧
      f.bits.testBit 3 = f.alphaForced ∧ f.bits.testBit 4 = f.edge ∧ f.bits.testBit 5 = f.floorFlag ∧
      f.bits.testBit 6 = f.noMotion ∧ f.bits.testBit 7 = f.stale ∧ f.bits.testBit 8 = f.lowConfidence ∧
      f.bits.testBit 9 = f.probeSkipped ∧ f.bits.testBit 10 = f.repeated ∧ f.bits.testBit 11 = f.grey ∧
      f.bits.testBit 12 = f.captureMark) ∧
  ∀ (d : Device) (r : SendingRecord) (t : Trailer), d.link.sending = some r →
    d.link.lastTrailer = some t → 53 ≤ d.outputSize.1 →
    ∃ line, d.trailerLine = some line ∧ line.length = d.outputSize.1 ∧ line.take 53 = t.bytes ∧
      ∀ b ∈ line.drop 53, b = 0

/-! ### Events (Chapter 12) -/

/-- R179, R182, R184, R186: EVENT_CONFIG sets the 21 enables, the 21 urgencies and both masters of its own port by their
bits, or is refused BAD_PARAM when a bit without a meaning is 1; ACK_EVENTS clears the named records of its own port, or
is refused BAD_PARAM as a whole when it names a kind above 20; CLEAR_FAULT empties the fault capture record and leaves
every event record. -/
def Obligations.EventCommandsActOnOnePort : Prop :=
  ∀ (p : CmdPort) (enables urgencies : Word24) (masters : Byte) (kinds : List Byte) (s : State),
    s.dev.ctl.resetLow = false → s.dev.mode ≠ .waking → s.dev.mode ≠ .resetting →
    exec (.eventConfig p enables urgencies masters) s = .next
      (if enables.toNat < 2 ^ 21 ∧ urgencies.toNat < 2 ^ 21 ∧ masters.toNat < 4 then
        s.answered p { status := .ok, payload := [] } (s.dev.setEventSet p
          { records := (s.dev.eventSet p).records.map fun r =>
              { r with enabled := enables.getLsbD r.kind.number, urgent := urgencies.getLsbD r.kind.number }
            urgentMaster := masters.getLsbD 0
            normalMaster := masters.getLsbD 1 })
      else s.refusedWith p .badParam) ∧
    (1 ≤ kinds.length → kinds.length ≤ 21 →
      exec (.ackEvents p kinds) s = .next
        (if ∀ k ∈ kinds, k.toNat ≤ 20 then
          s.answered p { status := .ok, payload := [] } (s.dev.setEventSet p
            { s.dev.eventSet p with
              records := (s.dev.eventSet p).records.map fun r =>
                if BitVec.ofNat 8 r.kind.number ∈ kinds then { r with pending := false, count := 0, detail := none }
                else r })
        else s.refusedWith p .badParam)) ∧
    exec (.clearFault p) s = .next (s.answered p { status := .ok, payload := [] }
      { s.dev with events := { s.dev.events with fault := { captured := none, overflow := 0 } } })

/-- R180, R181, R185: an event is recorded in both ports' records whatever their settings: a record not pending becomes
pending with count 1 and the detail, a pending one counts up to 255. A fault-class event fills an empty fault capture
record, and FAULT_CAPTURED is then raised, or raises the overflow count of a full one. A port's attention line is
asserted exactly while a pending, enabled record has the master of its urgency on, and RESET_N is high. -/
def Obligations.EventsAreRecordedAndCaptured : Prop :=
  ∀ (d : Device) (k : EventKind) (x : EventDetail) (p : CmdPort),
    let recorded := fun (kind : EventKind) (detail : EventDetail) (r : EventRecord) =>
      if r.kind ≠ kind then r
      else if r.pending = true then { r with count := min 255 (r.count + 1) }
      else { r with pending := true, count := 1, detail := some detail }
    let after := fun (f : EventRecord → EventRecord) (fault : FaultCapture) =>
      { a := { d.events.a with records := d.events.a.records.map f },
        m := { d.events.m with records := d.events.m.records.map f }, fault := fault : EventUnit }
    (k.isFault = false → d.raise k x = d.withEvents (after (recorded k x) d.events.fault)) ∧
    (k.isFault = true → ∀ c, d.events.fault.captured = some c →
      d.raise k x = d.withEvents (after (recorded k x)
        { d.events.fault with overflow := min 255 (d.events.fault.overflow + 1) })) ∧
    (k.isFault = true → d.events.fault.captured = none →
      d.raise k x = d.withEvents (after
        (fun r => recorded .faultCaptured
          { port := x.port, requestId := none, period := x.period, reason := some k.number, zooms := none }
          (recorded k x r))
        { d.events.fault with
          captured := some { kind := k, port := x.port, period := x.period, time := d.now, reason := x.reason } })) ∧
    (d.attention p = true ↔ d.ctl.resetLow = false ∧ ∃ r ∈ (d.eventSet p).records, r.pending = true ∧ r.enabled = true ∧
      if r.urgent = true then (d.eventSet p).urgentMaster = true else (d.eventSet p).normalMaster = true)

/-! ### Conditions that every step keeps -/

/-- The conditions of `Sys2Proof/Safety.lean` hold right after power-on. -/
def Obligations.ConditionsHoldAtReset : Prop :=
  State.reset.Inv ∧ State.reset.dev.RolesCoherent ∧ State.reset.dev.ZoomsInRange ∧ State.reset.dev.RingOrdered ∧
    State.reset.dev.FramesCoherent ∧ State.reset.dev.BuffersCoherent

/-- 0.2.2, assumption log 8: every step keeps frame memory in its canonical form, from every state that has it. -/
def Obligations.StepKeepsMemoryCanonical : Prop :=
  ∀ s t : State, s.mem.wf = true → step s = .next t → t.mem.wf = true

/-- R180, R39, R93, R115, R53, R55, R166, R127, R133, R141, R37, R58: every step keeps, from every state that has it,
each of these conditions: coherent event records; the bounds of the queues; session, hand-off state and roles present in
STREAMING and STOPPING alone; the twelve slot records coherent; zoom codes in 50..10000; the motion ring ordered by its
stamps; at most one buffer COMPOSING, SENDING and LAST; and, with the session and the slot records coherent, no port
over its quota, the quotas at most 12 in sum and the content periods of a port's slots all different. -/
def Obligations.StepKeepsRecordsCoherent : Prop :=
  ∀ s t : State, step s = .next t →
    (s.dev.events.coherent → t.dev.events.coherent) ∧ (s.dev.queuesBounded → t.dev.queuesBounded) ∧
      (s.dev.sessionCoherent → t.dev.sessionCoherent) ∧ (s.dev.slotsCoherent → t.dev.slotsCoherent) ∧
      (s.dev.ZoomsInRange → t.dev.ZoomsInRange) ∧ (s.dev.RingOrdered → t.dev.RingOrdered) ∧
      (s.dev.BuffersCoherent → t.dev.BuffersCoherent) ∧
      (s.dev.sessionCoherent → s.dev.slotsCoherent → s.dev.FramesCoherent → t.dev.FramesCoherent)

/-- R53, R55, R59 to R61, R70 to R73: every step keeps the roles coherent in a state whose session is: at most one ACTIVE
port, the DEST the hand-off context's, an ACTIVE port in every state but NO_SOURCE, and none of them without a link. -/
def Obligations.StepKeepsRolesCoherent : Prop :=
  ∀ s t : State, s.dev.sessionCoherent → s.dev.RolesCoherent → step s = .next t → t.dev.RolesCoherent

/-- 0.2.2: from every state that meets the conditions, every step answers a next state that meets them: no command,
event or tick faults or is refused. -/
def Obligations.StepNeverFaults : Prop :=
  ∀ s : State, s.Inv → ∃ t, step s = .next t ∧ t.Inv
end

