-- ==== Sys2Proof/Laws/Commands.lean ====
section
/-! SUPPORT. Sys2Proof/Laws/Commands.lean: how every well-formed message is dealt with (R173): the one form that the meanings of
the commands of Table 11-3 share, and the refusals of that table. -/

namespace Sys2Proof.Machine

open Sys2Proof

/-- Every command of Table 11-3 is taken by `Device.takeCommand` with an owner of its own. -/
theorem exec_command {i : Instr} {p : CmdPort} {c : Command} (h : i.command? = some (p, c)) (s : State) :
    ∃ owner, exec i s = .next (s.onDevice fun d => d.takeCommand p c owner) := by
  cases i <;> simp only [Instr.command?, Option.some.injEq, Prod.mk.injEq, reduceCtorEq] at h <;>
    (obtain ⟨rfl, rfl⟩ := h; exact ⟨_, rfl⟩)

/-- R160: neither port takes a command while RESET_N is low. -/
theorem Device.takeCommand_of_resetLow {d : Device} (h : d.ctl.resetLow = true) (p : CmdPort) (c : Command)
    (owner : Device → Answer) : d.takeCommand p c owner = d := by
  simp [Device.takeCommand, h]

/-- R173 steps 3 and 5: a command that the mode does not take changes the reply slot alone. -/
theorem Device.takeCommand_of_refused {d : Device} (hr : d.ctl.resetLow = false) {p : CmdPort} {c : Command} {st : Status}
    (h : availability d.mode c = some st) (owner : Device → Answer) :
    d.takeCommand p c owner = d.setReply p (Reply.bare st) := by
  simp [Device.takeCommand, hr, h]

/-- R173 step 6: a command that the mode takes is answered by its owner. -/
theorem Device.takeCommand_of_taken {d : Device} (hr : d.ctl.resetLow = false) {p : CmdPort} {c : Command}
    (h : availability d.mode c = none) (owner : Device → Answer) :
    d.takeCommand p c owner = (owner d).2.setReply p (owner d).1 := by
  simp [Device.takeCommand, hr, h]

/-- R174: the slot is replaced whole, the reset cause left. -/
@[simp] theorem Device.setReply_host_self (d : Device) (p : CmdPort) (r : Reply) :
    (d.setReply p r).host p = { d.host p with reply := r } := by
  cases p <;> rfl

end Sys2Proof.Machine
end

