-- ==== Sys2Proof/Laws/State.lean ====
section
/-! SUPPORT. Sys2Proof/Laws/State.lean: one lemma per field per update of the state, and per value of a port, so that no
proof unfolds a record update. -/

namespace Sys2Proof.Machine

open Sys2Proof


/-! ### State.onDevice -/

@[simp] theorem State.onDevice_dev (s : State) (f : Device → Device) : (s.onDevice f).dev = f s.dev := rfl
@[simp] theorem State.onDevice_mem (s : State) (f : Device → Device) : (s.onDevice f).mem = s.mem := rfl
@[simp] theorem State.onDevice_freeIndex (s : State) (f : Device → Device) : (s.onDevice f).freeIndex = s.freeIndex := rfl
@[simp] theorem State.onDevice_pending (s : State) (f : Device → Device) : (s.onDevice f).pending = s.pending := rfl

/-! ### Device.onPlanner -/

@[simp] theorem Device.onPlanner_ctl (d : Device) (f : Planner → Planner) : (d.onPlanner f).ctl = d.ctl := rfl
@[simp] theorem Device.onPlanner_hostA (d : Device) (f : Planner → Planner) : (d.onPlanner f).hostA = d.hostA := rfl
@[simp] theorem Device.onPlanner_hostM (d : Device) (f : Planner → Planner) : (d.onPlanner f).hostM = d.hostM := rfl
@[simp] theorem Device.onPlanner_planner (d : Device) (f : Planner → Planner) :
    (d.onPlanner f).planner = f d.planner := rfl
@[simp] theorem Device.onPlanner_cal (d : Device) (f : Planner → Planner) : (d.onPlanner f).cal = d.cal := rfl
@[simp] theorem Device.onPlanner_probe (d : Device) (f : Planner → Planner) : (d.onPlanner f).probe = d.probe := rfl
@[simp] theorem Device.onPlanner_probeResult (d : Device) (f : Planner → Planner) :
    (d.onPlanner f).probeResult = d.probeResult := rfl
@[simp] theorem Device.onPlanner_motion (d : Device) (f : Planner → Planner) : (d.onPlanner f).motion = d.motion := rfl
@[simp] theorem Device.onPlanner_ports (d : Device) (f : Planner → Planner) : (d.onPlanner f).ports = d.ports := rfl
@[simp] theorem Device.onPlanner_slots (d : Device) (f : Planner → Planner) : (d.onPlanner f).slots = d.slots := rfl
@[simp] theorem Device.onPlanner_composePoint (d : Device) (f : Planner → Planner) :
    (d.onPlanner f).composePoint = d.composePoint := rfl
@[simp] theorem Device.onPlanner_composing (d : Device) (f : Planner → Planner) :
    (d.onPlanner f).composing = d.composing := rfl
@[simp] theorem Device.onPlanner_buffers (d : Device) (f : Planner → Planner) :
    (d.onPlanner f).buffers = d.buffers := rfl
@[simp] theorem Device.onPlanner_link (d : Device) (f : Planner → Planner) : (d.onPlanner f).link = d.link := rfl
@[simp] theorem Device.onPlanner_events (d : Device) (f : Planner → Planner) : (d.onPlanner f).events = d.events := rfl

/-! ### Device.onCtl -/

@[simp] theorem Device.onCtl_ctl (d : Device) (f : ModeController → ModeController) : (d.onCtl f).ctl = f d.ctl := rfl
@[simp] theorem Device.onCtl_hostA (d : Device) (f : ModeController → ModeController) :
    (d.onCtl f).hostA = d.hostA := rfl
@[simp] theorem Device.onCtl_hostM (d : Device) (f : ModeController → ModeController) :
    (d.onCtl f).hostM = d.hostM := rfl
@[simp] theorem Device.onCtl_planner (d : Device) (f : ModeController → ModeController) :
    (d.onCtl f).planner = d.planner := rfl
@[simp] theorem Device.onCtl_cal (d : Device) (f : ModeController → ModeController) : (d.onCtl f).cal = d.cal := rfl
@[simp] theorem Device.onCtl_probe (d : Device) (f : ModeController → ModeController) :
    (d.onCtl f).probe = d.probe := rfl
@[simp] theorem Device.onCtl_probeResult (d : Device) (f : ModeController → ModeController) :
    (d.onCtl f).probeResult = d.probeResult := rfl
@[simp] theorem Device.onCtl_motion (d : Device) (f : ModeController → ModeController) :
    (d.onCtl f).motion = d.motion := rfl
@[simp] theorem Device.onCtl_ports (d : Device) (f : ModeController → ModeController) :
    (d.onCtl f).ports = d.ports := rfl
@[simp] theorem Device.onCtl_slots (d : Device) (f : ModeController → ModeController) :
    (d.onCtl f).slots = d.slots := rfl
@[simp] theorem Device.onCtl_composePoint (d : Device) (f : ModeController → ModeController) :
    (d.onCtl f).composePoint = d.composePoint := rfl
@[simp] theorem Device.onCtl_composing (d : Device) (f : ModeController → ModeController) :
    (d.onCtl f).composing = d.composing := rfl
@[simp] theorem Device.onCtl_buffers (d : Device) (f : ModeController → ModeController) :
    (d.onCtl f).buffers = d.buffers := rfl
@[simp] theorem Device.onCtl_link (d : Device) (f : ModeController → ModeController) : (d.onCtl f).link = d.link := rfl
@[simp] theorem Device.onCtl_events (d : Device) (f : ModeController → ModeController) :
    (d.onCtl f).events = d.events := rfl

/-! ### Device.onLink -/

@[simp] theorem Device.onLink_ctl (d : Device) (f : OutputLink → OutputLink) : (d.onLink f).ctl = d.ctl := rfl
@[simp] theorem Device.onLink_hostA (d : Device) (f : OutputLink → OutputLink) : (d.onLink f).hostA = d.hostA := rfl
@[simp] theorem Device.onLink_hostM (d : Device) (f : OutputLink → OutputLink) : (d.onLink f).hostM = d.hostM := rfl
@[simp] theorem Device.onLink_planner (d : Device) (f : OutputLink → OutputLink) :
    (d.onLink f).planner = d.planner := rfl
@[simp] theorem Device.onLink_cal (d : Device) (f : OutputLink → OutputLink) : (d.onLink f).cal = d.cal := rfl
@[simp] theorem Device.onLink_probe (d : Device) (f : OutputLink → OutputLink) : (d.onLink f).probe = d.probe := rfl
@[simp] theorem Device.onLink_probeResult (d : Device) (f : OutputLink → OutputLink) :
    (d.onLink f).probeResult = d.probeResult := rfl
@[simp] theorem Device.onLink_motion (d : Device) (f : OutputLink → OutputLink) : (d.onLink f).motion = d.motion := rfl
@[simp] theorem Device.onLink_ports (d : Device) (f : OutputLink → OutputLink) : (d.onLink f).ports = d.ports := rfl
@[simp] theorem Device.onLink_slots (d : Device) (f : OutputLink → OutputLink) : (d.onLink f).slots = d.slots := rfl
@[simp] theorem Device.onLink_composePoint (d : Device) (f : OutputLink → OutputLink) :
    (d.onLink f).composePoint = d.composePoint := rfl
@[simp] theorem Device.onLink_composing (d : Device) (f : OutputLink → OutputLink) :
    (d.onLink f).composing = d.composing := rfl
@[simp] theorem Device.onLink_buffers (d : Device) (f : OutputLink → OutputLink) :
    (d.onLink f).buffers = d.buffers := rfl
@[simp] theorem Device.onLink_link (d : Device) (f : OutputLink → OutputLink) : (d.onLink f).link = f d.link := rfl
@[simp] theorem Device.onLink_events (d : Device) (f : OutputLink → OutputLink) : (d.onLink f).events = d.events := rfl

/-! ### Device.onPort -/

@[simp] theorem Device.onPort_ctl (d : Device) (m : PortId) (f : ModulePort → ModulePort) :
    (d.onPort m f).ctl = d.ctl := rfl
@[simp] theorem Device.onPort_hostA (d : Device) (m : PortId) (f : ModulePort → ModulePort) :
    (d.onPort m f).hostA = d.hostA := rfl
@[simp] theorem Device.onPort_hostM (d : Device) (m : PortId) (f : ModulePort → ModulePort) :
    (d.onPort m f).hostM = d.hostM := rfl
@[simp] theorem Device.onPort_planner (d : Device) (m : PortId) (f : ModulePort → ModulePort) :
    (d.onPort m f).planner = d.planner := rfl
@[simp] theorem Device.onPort_cal (d : Device) (m : PortId) (f : ModulePort → ModulePort) :
    (d.onPort m f).cal = d.cal := rfl
@[simp] theorem Device.onPort_probe (d : Device) (m : PortId) (f : ModulePort → ModulePort) :
    (d.onPort m f).probe = d.probe := rfl
@[simp] theorem Device.onPort_probeResult (d : Device) (m : PortId) (f : ModulePort → ModulePort) :
    (d.onPort m f).probeResult = d.probeResult := rfl
@[simp] theorem Device.onPort_motion (d : Device) (m : PortId) (f : ModulePort → ModulePort) :
    (d.onPort m f).motion = d.motion := rfl
@[simp] theorem Device.onPort_ports (d : Device) (m : PortId) (f : ModulePort → ModulePort) :
    (d.onPort m f).ports = d.ports.set m (f (d.ports.get m)) := rfl
@[simp] theorem Device.onPort_slots (d : Device) (m : PortId) (f : ModulePort → ModulePort) :
    (d.onPort m f).slots = d.slots := rfl
@[simp] theorem Device.onPort_composePoint (d : Device) (m : PortId) (f : ModulePort → ModulePort) :
    (d.onPort m f).composePoint = d.composePoint := rfl
@[simp] theorem Device.onPort_composing (d : Device) (m : PortId) (f : ModulePort → ModulePort) :
    (d.onPort m f).composing = d.composing := rfl
@[simp] theorem Device.onPort_buffers (d : Device) (m : PortId) (f : ModulePort → ModulePort) :
    (d.onPort m f).buffers = d.buffers := rfl
@[simp] theorem Device.onPort_link (d : Device) (m : PortId) (f : ModulePort → ModulePort) :
    (d.onPort m f).link = d.link := rfl
@[simp] theorem Device.onPort_events (d : Device) (m : PortId) (f : ModulePort → ModulePort) :
    (d.onPort m f).events = d.events := rfl

/-! ### Device.onSlot -/

@[simp] theorem Device.onSlot_ctl (d : Device) (id : Nat) (f : Slot → Slot) : (d.onSlot id f).ctl = d.ctl := rfl
@[simp] theorem Device.onSlot_hostA (d : Device) (id : Nat) (f : Slot → Slot) : (d.onSlot id f).hostA = d.hostA := rfl
@[simp] theorem Device.onSlot_hostM (d : Device) (id : Nat) (f : Slot → Slot) : (d.onSlot id f).hostM = d.hostM := rfl
@[simp] theorem Device.onSlot_planner (d : Device) (id : Nat) (f : Slot → Slot) :
    (d.onSlot id f).planner = d.planner := rfl
@[simp] theorem Device.onSlot_cal (d : Device) (id : Nat) (f : Slot → Slot) : (d.onSlot id f).cal = d.cal := rfl
@[simp] theorem Device.onSlot_probe (d : Device) (id : Nat) (f : Slot → Slot) : (d.onSlot id f).probe = d.probe := rfl
@[simp] theorem Device.onSlot_probeResult (d : Device) (id : Nat) (f : Slot → Slot) :
    (d.onSlot id f).probeResult = d.probeResult := rfl
@[simp] theorem Device.onSlot_motion (d : Device) (id : Nat) (f : Slot → Slot) :
    (d.onSlot id f).motion = d.motion := rfl
@[simp] theorem Device.onSlot_ports (d : Device) (id : Nat) (f : Slot → Slot) : (d.onSlot id f).ports = d.ports := rfl
@[simp] theorem Device.onSlot_slots (d : Device) (id : Nat) (f : Slot → Slot) :
    (d.onSlot id f).slots = d.slots.map fun s => if s.id = id then f s else s := rfl
@[simp] theorem Device.onSlot_composePoint (d : Device) (id : Nat) (f : Slot → Slot) :
    (d.onSlot id f).composePoint = d.composePoint := rfl
@[simp] theorem Device.onSlot_composing (d : Device) (id : Nat) (f : Slot → Slot) :
    (d.onSlot id f).composing = d.composing := rfl
@[simp] theorem Device.onSlot_buffers (d : Device) (id : Nat) (f : Slot → Slot) :
    (d.onSlot id f).buffers = d.buffers := rfl
@[simp] theorem Device.onSlot_link (d : Device) (id : Nat) (f : Slot → Slot) : (d.onSlot id f).link = d.link := rfl
@[simp] theorem Device.onSlot_events (d : Device) (id : Nat) (f : Slot → Slot) :
    (d.onSlot id f).events = d.events := rfl

/-! ### Device.onBuffer -/

@[simp] theorem Device.onBuffer_ctl (d : Device) (id : Nat) (f : OutputBuffer → OutputBuffer) :
    (d.onBuffer id f).ctl = d.ctl := rfl
@[simp] theorem Device.onBuffer_hostA (d : Device) (id : Nat) (f : OutputBuffer → OutputBuffer) :
    (d.onBuffer id f).hostA = d.hostA := rfl
@[simp] theorem Device.onBuffer_hostM (d : Device) (id : Nat) (f : OutputBuffer → OutputBuffer) :
    (d.onBuffer id f).hostM = d.hostM := rfl
@[simp] theorem Device.onBuffer_planner (d : Device) (id : Nat) (f : OutputBuffer → OutputBuffer) :
    (d.onBuffer id f).planner = d.planner := rfl
@[simp] theorem Device.onBuffer_cal (d : Device) (id : Nat) (f : OutputBuffer → OutputBuffer) :
    (d.onBuffer id f).cal = d.cal := rfl
@[simp] theorem Device.onBuffer_probe (d : Device) (id : Nat) (f : OutputBuffer → OutputBuffer) :
    (d.onBuffer id f).probe = d.probe := rfl
@[simp] theorem Device.onBuffer_probeResult (d : Device) (id : Nat) (f : OutputBuffer → OutputBuffer) :
    (d.onBuffer id f).probeResult = d.probeResult := rfl
@[simp] theorem Device.onBuffer_motion (d : Device) (id : Nat) (f : OutputBuffer → OutputBuffer) :
    (d.onBuffer id f).motion = d.motion := rfl
@[simp] theorem Device.onBuffer_ports (d : Device) (id : Nat) (f : OutputBuffer → OutputBuffer) :
    (d.onBuffer id f).ports = d.ports := rfl
@[simp] theorem Device.onBuffer_slots (d : Device) (id : Nat) (f : OutputBuffer → OutputBuffer) :
    (d.onBuffer id f).slots = d.slots := rfl
@[simp] theorem Device.onBuffer_composePoint (d : Device) (id : Nat) (f : OutputBuffer → OutputBuffer) :
    (d.onBuffer id f).composePoint = d.composePoint := rfl
@[simp] theorem Device.onBuffer_composing (d : Device) (id : Nat) (f : OutputBuffer → OutputBuffer) :
    (d.onBuffer id f).composing = d.composing := rfl
@[simp] theorem Device.onBuffer_buffers (d : Device) (id : Nat) (f : OutputBuffer → OutputBuffer) :
    (d.onBuffer id f).buffers = d.buffers.map fun b => if b.id = id then f b else b := rfl
@[simp] theorem Device.onBuffer_link (d : Device) (id : Nat) (f : OutputBuffer → OutputBuffer) :
    (d.onBuffer id f).link = d.link := rfl
@[simp] theorem Device.onBuffer_events (d : Device) (id : Nat) (f : OutputBuffer → OutputBuffer) :
    (d.onBuffer id f).events = d.events := rfl

/-! ### Device.raise -/

@[simp] theorem Device.raise_ctl (d : Device) (k : EventKind) (x : EventDetail) : (d.raise k x).ctl = d.ctl := rfl
@[simp] theorem Device.raise_hostA (d : Device) (k : EventKind) (x : EventDetail) : (d.raise k x).hostA = d.hostA := rfl
@[simp] theorem Device.raise_hostM (d : Device) (k : EventKind) (x : EventDetail) : (d.raise k x).hostM = d.hostM := rfl
@[simp] theorem Device.raise_planner (d : Device) (k : EventKind) (x : EventDetail) :
    (d.raise k x).planner = d.planner := rfl
@[simp] theorem Device.raise_cal (d : Device) (k : EventKind) (x : EventDetail) : (d.raise k x).cal = d.cal := rfl
@[simp] theorem Device.raise_probe (d : Device) (k : EventKind) (x : EventDetail) : (d.raise k x).probe = d.probe := rfl
@[simp] theorem Device.raise_probeResult (d : Device) (k : EventKind) (x : EventDetail) :
    (d.raise k x).probeResult = d.probeResult := rfl
@[simp] theorem Device.raise_motion (d : Device) (k : EventKind) (x : EventDetail) :
    (d.raise k x).motion = d.motion := rfl
@[simp] theorem Device.raise_ports (d : Device) (k : EventKind) (x : EventDetail) : (d.raise k x).ports = d.ports := rfl
@[simp] theorem Device.raise_slots (d : Device) (k : EventKind) (x : EventDetail) : (d.raise k x).slots = d.slots := rfl
@[simp] theorem Device.raise_composePoint (d : Device) (k : EventKind) (x : EventDetail) :
    (d.raise k x).composePoint = d.composePoint := rfl
@[simp] theorem Device.raise_composing (d : Device) (k : EventKind) (x : EventDetail) :
    (d.raise k x).composing = d.composing := rfl
@[simp] theorem Device.raise_buffers (d : Device) (k : EventKind) (x : EventDetail) :
    (d.raise k x).buffers = d.buffers := rfl
@[simp] theorem Device.raise_link (d : Device) (k : EventKind) (x : EventDetail) : (d.raise k x).link = d.link := rfl
@[simp] theorem Device.raise_events (d : Device) (k : EventKind) (x : EventDetail) :
    (d.raise k x).events = d.events.raise d.now k x := rfl

/-! ### Device.setHost -/

@[simp] theorem Device.setHost_ctl (d : Device) (p : CmdPort) (h : HostPort) : (d.setHost p h).ctl = d.ctl := by
  cases p <;> rfl
@[simp] theorem Device.setHost_planner (d : Device) (p : CmdPort) (h : HostPort) : (d.setHost p h).planner = d.planner := by
  cases p <;> rfl
@[simp] theorem Device.setHost_cal (d : Device) (p : CmdPort) (h : HostPort) : (d.setHost p h).cal = d.cal := by
  cases p <;> rfl
@[simp] theorem Device.setHost_probe (d : Device) (p : CmdPort) (h : HostPort) : (d.setHost p h).probe = d.probe := by
  cases p <;> rfl
@[simp] theorem Device.setHost_probeResult (d : Device) (p : CmdPort) (h : HostPort) : (d.setHost p h).probeResult = d.probeResult := by
  cases p <;> rfl
@[simp] theorem Device.setHost_motion (d : Device) (p : CmdPort) (h : HostPort) : (d.setHost p h).motion = d.motion := by
  cases p <;> rfl
@[simp] theorem Device.setHost_ports (d : Device) (p : CmdPort) (h : HostPort) : (d.setHost p h).ports = d.ports := by
  cases p <;> rfl
@[simp] theorem Device.setHost_slots (d : Device) (p : CmdPort) (h : HostPort) : (d.setHost p h).slots = d.slots := by
  cases p <;> rfl
@[simp] theorem Device.setHost_composePoint (d : Device) (p : CmdPort) (h : HostPort) : (d.setHost p h).composePoint = d.composePoint := by
  cases p <;> rfl
@[simp] theorem Device.setHost_composing (d : Device) (p : CmdPort) (h : HostPort) : (d.setHost p h).composing = d.composing := by
  cases p <;> rfl
@[simp] theorem Device.setHost_buffers (d : Device) (p : CmdPort) (h : HostPort) : (d.setHost p h).buffers = d.buffers := by
  cases p <;> rfl
@[simp] theorem Device.setHost_link (d : Device) (p : CmdPort) (h : HostPort) : (d.setHost p h).link = d.link := by
  cases p <;> rfl
@[simp] theorem Device.setHost_events (d : Device) (p : CmdPort) (h : HostPort) : (d.setHost p h).events = d.events := by
  cases p <;> rfl
@[simp] theorem Device.host_setHost (d : Device) (p : CmdPort) (h : HostPort) : (d.setHost p h).host p = h := by
  cases p <;> rfl
theorem Device.host_setHost_of_ne (d : Device) {p q : CmdPort} (h : HostPort) (hne : q ≠ p) :
    (d.setHost p h).host q = d.host q := by
  cases p <;> cases q <;> first | rfl | exact absurd rfl hne

/-! ### Device.setReply and Device.setCause -/

@[simp] theorem Device.setReply_ctl (d : Device) (p : CmdPort) (r : Reply) : (d.setReply p r).ctl = d.ctl := by
  cases p <;> rfl
@[simp] theorem Device.setReply_planner (d : Device) (p : CmdPort) (r : Reply) : (d.setReply p r).planner = d.planner := by
  cases p <;> rfl
@[simp] theorem Device.setReply_cal (d : Device) (p : CmdPort) (r : Reply) : (d.setReply p r).cal = d.cal := by
  cases p <;> rfl
@[simp] theorem Device.setReply_probe (d : Device) (p : CmdPort) (r : Reply) : (d.setReply p r).probe = d.probe := by
  cases p <;> rfl
@[simp] theorem Device.setReply_probeResult (d : Device) (p : CmdPort) (r : Reply) : (d.setReply p r).probeResult = d.probeResult := by
  cases p <;> rfl
@[simp] theorem Device.setReply_motion (d : Device) (p : CmdPort) (r : Reply) : (d.setReply p r).motion = d.motion := by
  cases p <;> rfl
@[simp] theorem Device.setReply_ports (d : Device) (p : CmdPort) (r : Reply) : (d.setReply p r).ports = d.ports := by
  cases p <;> rfl
@[simp] theorem Device.setReply_slots (d : Device) (p : CmdPort) (r : Reply) : (d.setReply p r).slots = d.slots := by
  cases p <;> rfl
@[simp] theorem Device.setReply_composePoint (d : Device) (p : CmdPort) (r : Reply) : (d.setReply p r).composePoint = d.composePoint := by
  cases p <;> rfl
@[simp] theorem Device.setReply_composing (d : Device) (p : CmdPort) (r : Reply) : (d.setReply p r).composing = d.composing := by
  cases p <;> rfl
@[simp] theorem Device.setReply_buffers (d : Device) (p : CmdPort) (r : Reply) : (d.setReply p r).buffers = d.buffers := by
  cases p <;> rfl
@[simp] theorem Device.setReply_link (d : Device) (p : CmdPort) (r : Reply) : (d.setReply p r).link = d.link := by
  cases p <;> rfl
@[simp] theorem Device.setReply_events (d : Device) (p : CmdPort) (r : Reply) : (d.setReply p r).events = d.events := by
  cases p <;> rfl
@[simp] theorem Device.setCause_ctl (d : Device) (p : CmdPort) (c : ResetCause) : (d.setCause p c).ctl = d.ctl := by
  cases p <;> rfl
@[simp] theorem Device.setCause_planner (d : Device) (p : CmdPort) (c : ResetCause) : (d.setCause p c).planner = d.planner := by
  cases p <;> rfl
@[simp] theorem Device.setCause_cal (d : Device) (p : CmdPort) (c : ResetCause) : (d.setCause p c).cal = d.cal := by
  cases p <;> rfl
@[simp] theorem Device.setCause_probe (d : Device) (p : CmdPort) (c : ResetCause) : (d.setCause p c).probe = d.probe := by
  cases p <;> rfl
@[simp] theorem Device.setCause_probeResult (d : Device) (p : CmdPort) (c : ResetCause) : (d.setCause p c).probeResult = d.probeResult := by
  cases p <;> rfl
@[simp] theorem Device.setCause_motion (d : Device) (p : CmdPort) (c : ResetCause) : (d.setCause p c).motion = d.motion := by
  cases p <;> rfl
@[simp] theorem Device.setCause_ports (d : Device) (p : CmdPort) (c : ResetCause) : (d.setCause p c).ports = d.ports := by
  cases p <;> rfl
@[simp] theorem Device.setCause_slots (d : Device) (p : CmdPort) (c : ResetCause) : (d.setCause p c).slots = d.slots := by
  cases p <;> rfl
@[simp] theorem Device.setCause_composePoint (d : Device) (p : CmdPort) (c : ResetCause) : (d.setCause p c).composePoint = d.composePoint := by
  cases p <;> rfl
@[simp] theorem Device.setCause_composing (d : Device) (p : CmdPort) (c : ResetCause) : (d.setCause p c).composing = d.composing := by
  cases p <;> rfl
@[simp] theorem Device.setCause_buffers (d : Device) (p : CmdPort) (c : ResetCause) : (d.setCause p c).buffers = d.buffers := by
  cases p <;> rfl
@[simp] theorem Device.setCause_link (d : Device) (p : CmdPort) (c : ResetCause) : (d.setCause p c).link = d.link := by
  cases p <;> rfl
@[simp] theorem Device.setCause_events (d : Device) (p : CmdPort) (c : ResetCause) : (d.setCause p c).events = d.events := by
  cases p <;> rfl
@[simp] theorem Device.setReply_reply (d : Device) (p : CmdPort) (r : Reply) : ((d.setReply p r).host p).reply = r := by
  cases p <;> rfl
@[simp] theorem Device.setReply_cause (d : Device) (p q : CmdPort) (r : Reply) :
    ((d.setReply p r).host q).cause = (d.host q).cause := by
  cases p <;> cases q <;> rfl
theorem Device.setReply_host_of_ne (d : Device) {p q : CmdPort} (r : Reply) (hne : q ≠ p) :
    (d.setReply p r).host q = d.host q := by
  cases p <;> cases q <;> first | rfl | exact absurd rfl hne
@[simp] theorem Device.setCause_cause (d : Device) (p : CmdPort) (c : ResetCause) :
    ((d.setCause p c).host p).cause = c := by
  cases p <;> rfl
@[simp] theorem Device.setCause_reply (d : Device) (p q : CmdPort) (c : ResetCause) :
    ((d.setCause p c).host q).reply = (d.host q).reply := by
  cases p <;> cases q <;> rfl

/-! ### Device.setEventSet -/

@[simp] theorem Device.setEventSet_ctl (d : Device) (p : CmdPort) (e : EventSet) :
    (d.setEventSet p e).ctl = d.ctl := by
  cases p <;> rfl
@[simp] theorem Device.setEventSet_hostA (d : Device) (p : CmdPort) (e : EventSet) :
    (d.setEventSet p e).hostA = d.hostA := by
  cases p <;> rfl
@[simp] theorem Device.setEventSet_hostM (d : Device) (p : CmdPort) (e : EventSet) :
    (d.setEventSet p e).hostM = d.hostM := by
  cases p <;> rfl
@[simp] theorem Device.setEventSet_planner (d : Device) (p : CmdPort) (e : EventSet) :
    (d.setEventSet p e).planner = d.planner := by
  cases p <;> rfl
@[simp] theorem Device.setEventSet_cal (d : Device) (p : CmdPort) (e : EventSet) :
    (d.setEventSet p e).cal = d.cal := by
  cases p <;> rfl
@[simp] theorem Device.setEventSet_probe (d : Device) (p : CmdPort) (e : EventSet) :
    (d.setEventSet p e).probe = d.probe := by
  cases p <;> rfl
@[simp] theorem Device.setEventSet_probeResult (d : Device) (p : CmdPort) (e : EventSet) :
    (d.setEventSet p e).probeResult = d.probeResult := by
  cases p <;> rfl
@[simp] theorem Device.setEventSet_motion (d : Device) (p : CmdPort) (e : EventSet) :
    (d.setEventSet p e).motion = d.motion := by
  cases p <;> rfl
@[simp] theorem Device.setEventSet_ports (d : Device) (p : CmdPort) (e : EventSet) :
    (d.setEventSet p e).ports = d.ports := by
  cases p <;> rfl
@[simp] theorem Device.setEventSet_slots (d : Device) (p : CmdPort) (e : EventSet) :
    (d.setEventSet p e).slots = d.slots := by
  cases p <;> rfl
@[simp] theorem Device.setEventSet_composePoint (d : Device) (p : CmdPort) (e : EventSet) :
    (d.setEventSet p e).composePoint = d.composePoint := by
  cases p <;> rfl
@[simp] theorem Device.setEventSet_composing (d : Device) (p : CmdPort) (e : EventSet) :
    (d.setEventSet p e).composing = d.composing := by
  cases p <;> rfl
@[simp] theorem Device.setEventSet_buffers (d : Device) (p : CmdPort) (e : EventSet) :
    (d.setEventSet p e).buffers = d.buffers := by
  cases p <;> rfl
@[simp] theorem Device.setEventSet_link (d : Device) (p : CmdPort) (e : EventSet) :
    (d.setEventSet p e).link = d.link := by
  cases p <;> rfl
@[simp] theorem Device.eventSet_setEventSet (d : Device) (p : CmdPort) (e : EventSet) :
    (d.setEventSet p e).eventSet p = e := by
  cases p <;> rfl
theorem Device.eventSet_setEventSet_of_ne (d : Device) {p q : CmdPort} (e : EventSet) (hne : q ≠ p) :
    (d.setEventSet p e).eventSet q = d.eventSet q := by
  cases p <;> cases q <;> first | rfl | exact absurd rfl hne
@[simp] theorem Device.setEventSet_fault (d : Device) (p : CmdPort) (e : EventSet) :
    (d.setEventSet p e).events.fault = d.events.fault := by
  cases p <;> rfl

/-! ### PerPort -/

@[simp] theorem PerPort.get_set {α : Type} (v : PerPort α) (m : PortId) (x : α) : (v.set m x).get m = x := by
  cases m <;> rfl
theorem PerPort.get_set_of_ne {α : Type} (v : PerPort α) {m n : PortId} (x : α) (h : n ≠ m) :
    (v.set m x).get n = v.get n := by
  cases m <;> cases n <;> first | rfl | exact absurd rfl h
theorem PerPort.get_set_eq {α : Type} (v : PerPort α) (m n : PortId) (x : α) :
    (v.set m x).get n = if n = m then x else v.get n := by
  cases m <;> cases n <;> rfl
@[simp] theorem PerPort.get_all {α : Type} (x : α) (m : PortId) : (PerPort.all x).get m = x := by
  cases m <;> rfl
@[simp] theorem PerPort.get_map {α β : Type} (f : α → β) (v : PerPort α) (m : PortId) : (v.map f).get m = f (v.get m) := by
  cases m <;> rfl
theorem PerPort.ext_get {α : Type} {v w : PerPort α} (h : ∀ m, v.get m = w.get m) : v = w := by
  cases v; cases w
  simpa [PerPort.get] using ⟨h .p0, h .p1, h .p2, h .p3⟩

/-! ### Ports and roles through an update -/

@[simp] theorem Device.onPort_port (d : Device) (m : PortId) (f : ModulePort → ModulePort) :
    (d.onPort m f).port m = f (d.port m) := by
  simp [Device.port]
theorem Device.onPort_port_of_ne (d : Device) {m n : PortId} (f : ModulePort → ModulePort) (h : n ≠ m) :
    (d.onPort m f).port n = d.port n := by
  simp [Device.port, PerPort.get_set_of_ne _ _ h]
theorem Device.onPort_port_eq (d : Device) (m n : PortId) (f : ModulePort → ModulePort) :
    (d.onPort m f).port n = if n = m then f (d.port m) else d.port n := by
  simp only [Device.port, Device.onPort_ports, PerPort.get_set_eq]


/-! ### What the accessors read through an update -/

@[simp] theorem Device.onPlanner_mode (d : Device) (f : Planner → Planner) :
    (d.onPlanner f).mode = d.mode := rfl
@[simp] theorem Device.onPlanner_now (d : Device) (f : Planner → Planner) :
    (d.onPlanner f).now = d.now := rfl
@[simp] theorem Device.onPlanner_currentPeriod (d : Device) (f : Planner → Planner) :
    (d.onPlanner f).currentPeriod = d.currentPeriod := rfl
@[simp] theorem Device.onPlanner_port (d : Device) (f : Planner → Planner) (m : PortId) :
    (d.onPlanner f).port m = d.port m := rfl
@[simp] theorem Device.onPlanner_calOf (d : Device) (f : Planner → Planner) (m : PortId) :
    (d.onPlanner f).calOf m = d.calOf m := rfl
@[simp] theorem Device.onCtl_port (d : Device) (f : ModeController → ModeController) (m : PortId) :
    (d.onCtl f).port m = d.port m := rfl
@[simp] theorem Device.onCtl_role (d : Device) (f : ModeController → ModeController) (m : PortId) :
    (d.onCtl f).role m = d.role m := rfl
@[simp] theorem Device.onCtl_calOf (d : Device) (f : ModeController → ModeController) (m : PortId) :
    (d.onCtl f).calOf m = d.calOf m := rfl
@[simp] theorem Device.onLink_mode (d : Device) (f : OutputLink → OutputLink) :
    (d.onLink f).mode = d.mode := rfl
@[simp] theorem Device.onLink_now (d : Device) (f : OutputLink → OutputLink) :
    (d.onLink f).now = d.now := rfl
@[simp] theorem Device.onLink_currentPeriod (d : Device) (f : OutputLink → OutputLink) :
    (d.onLink f).currentPeriod = d.currentPeriod := rfl
@[simp] theorem Device.onLink_port (d : Device) (f : OutputLink → OutputLink) (m : PortId) :
    (d.onLink f).port m = d.port m := rfl
@[simp] theorem Device.onLink_role (d : Device) (f : OutputLink → OutputLink) (m : PortId) :
    (d.onLink f).role m = d.role m := rfl
@[simp] theorem Device.onLink_calOf (d : Device) (f : OutputLink → OutputLink) (m : PortId) :
    (d.onLink f).calOf m = d.calOf m := rfl
@[simp] theorem Device.onPort_mode (d : Device) (n : PortId) (f : ModulePort → ModulePort) :
    (d.onPort n f).mode = d.mode := rfl
@[simp] theorem Device.onPort_now (d : Device) (n : PortId) (f : ModulePort → ModulePort) :
    (d.onPort n f).now = d.now := rfl
@[simp] theorem Device.onPort_currentPeriod (d : Device) (n : PortId) (f : ModulePort → ModulePort) :
    (d.onPort n f).currentPeriod = d.currentPeriod := rfl
@[simp] theorem Device.onPort_role (d : Device) (n : PortId) (f : ModulePort → ModulePort) (m : PortId) :
    (d.onPort n f).role m = d.role m := rfl
@[simp] theorem Device.onPort_calOf (d : Device) (n : PortId) (f : ModulePort → ModulePort) (m : PortId) :
    (d.onPort n f).calOf m = d.calOf m := rfl
@[simp] theorem Device.onSlot_mode (d : Device) (id : Nat) (f : Slot → Slot) :
    (d.onSlot id f).mode = d.mode := rfl
@[simp] theorem Device.onSlot_now (d : Device) (id : Nat) (f : Slot → Slot) :
    (d.onSlot id f).now = d.now := rfl
@[simp] theorem Device.onSlot_currentPeriod (d : Device) (id : Nat) (f : Slot → Slot) :
    (d.onSlot id f).currentPeriod = d.currentPeriod := rfl
@[simp] theorem Device.onSlot_port (d : Device) (id : Nat) (f : Slot → Slot) (m : PortId) :
    (d.onSlot id f).port m = d.port m := rfl
@[simp] theorem Device.onSlot_role (d : Device) (id : Nat) (f : Slot → Slot) (m : PortId) :
    (d.onSlot id f).role m = d.role m := rfl
@[simp] theorem Device.onSlot_calOf (d : Device) (id : Nat) (f : Slot → Slot) (m : PortId) :
    (d.onSlot id f).calOf m = d.calOf m := rfl
@[simp] theorem Device.onBuffer_mode (d : Device) (id : Nat) (f : OutputBuffer → OutputBuffer) :
    (d.onBuffer id f).mode = d.mode := rfl
@[simp] theorem Device.onBuffer_now (d : Device) (id : Nat) (f : OutputBuffer → OutputBuffer) :
    (d.onBuffer id f).now = d.now := rfl
@[simp] theorem Device.onBuffer_currentPeriod (d : Device) (id : Nat) (f : OutputBuffer → OutputBuffer) :
    (d.onBuffer id f).currentPeriod = d.currentPeriod := rfl
@[simp] theorem Device.onBuffer_port (d : Device) (id : Nat) (f : OutputBuffer → OutputBuffer) (m : PortId) :
    (d.onBuffer id f).port m = d.port m := rfl
@[simp] theorem Device.onBuffer_role (d : Device) (id : Nat) (f : OutputBuffer → OutputBuffer) (m : PortId) :
    (d.onBuffer id f).role m = d.role m := rfl
@[simp] theorem Device.onBuffer_calOf (d : Device) (id : Nat) (f : OutputBuffer → OutputBuffer) (m : PortId) :
    (d.onBuffer id f).calOf m = d.calOf m := rfl
@[simp] theorem Device.raise_mode (d : Device) (k : EventKind) (x : EventDetail) :
    (d.raise k x).mode = d.mode := rfl
@[simp] theorem Device.raise_now (d : Device) (k : EventKind) (x : EventDetail) :
    (d.raise k x).now = d.now := rfl
@[simp] theorem Device.raise_currentPeriod (d : Device) (k : EventKind) (x : EventDetail) :
    (d.raise k x).currentPeriod = d.currentPeriod := rfl
@[simp] theorem Device.raise_port (d : Device) (k : EventKind) (x : EventDetail) (m : PortId) :
    (d.raise k x).port m = d.port m := rfl
@[simp] theorem Device.raise_role (d : Device) (k : EventKind) (x : EventDetail) (m : PortId) :
    (d.raise k x).role m = d.role m := rfl
@[simp] theorem Device.raise_calOf (d : Device) (k : EventKind) (x : EventDetail) (m : PortId) :
    (d.raise k x).calOf m = d.calOf m := rfl
@[simp] theorem Device.setReply_mode (d : Device) (p : CmdPort) (r : Reply) :
    (d.setReply p r).mode = d.mode := by
  cases p <;> rfl
@[simp] theorem Device.setReply_now (d : Device) (p : CmdPort) (r : Reply) :
    (d.setReply p r).now = d.now := by
  cases p <;> rfl
@[simp] theorem Device.setReply_currentPeriod (d : Device) (p : CmdPort) (r : Reply) :
    (d.setReply p r).currentPeriod = d.currentPeriod := by
  cases p <;> rfl
@[simp] theorem Device.setReply_port (d : Device) (p : CmdPort) (r : Reply) (m : PortId) :
    (d.setReply p r).port m = d.port m := by
  cases p <;> rfl
@[simp] theorem Device.setReply_role (d : Device) (p : CmdPort) (r : Reply) (m : PortId) :
    (d.setReply p r).role m = d.role m := by
  cases p <;> rfl
@[simp] theorem Device.setReply_calOf (d : Device) (p : CmdPort) (r : Reply) (m : PortId) :
    (d.setReply p r).calOf m = d.calOf m := by
  cases p <;> rfl
@[simp] theorem Device.setCause_mode (d : Device) (p : CmdPort) (c : ResetCause) :
    (d.setCause p c).mode = d.mode := by
  cases p <;> rfl
@[simp] theorem Device.setCause_now (d : Device) (p : CmdPort) (c : ResetCause) :
    (d.setCause p c).now = d.now := by
  cases p <;> rfl
@[simp] theorem Device.setCause_currentPeriod (d : Device) (p : CmdPort) (c : ResetCause) :
    (d.setCause p c).currentPeriod = d.currentPeriod := by
  cases p <;> rfl
@[simp] theorem Device.setCause_port (d : Device) (p : CmdPort) (c : ResetCause) (m : PortId) :
    (d.setCause p c).port m = d.port m := by
  cases p <;> rfl
@[simp] theorem Device.setCause_role (d : Device) (p : CmdPort) (c : ResetCause) (m : PortId) :
    (d.setCause p c).role m = d.role m := by
  cases p <;> rfl
@[simp] theorem Device.setCause_calOf (d : Device) (p : CmdPort) (c : ResetCause) (m : PortId) :
    (d.setCause p c).calOf m = d.calOf m := by
  cases p <;> rfl

end Sys2Proof.Machine
end

