-- ==== Sys2Proof/Laws/Bus.lean ====
section
/-! SUPPORT. Sys2Proof/Laws/Bus.lean: what the byte by byte steps of a bus transaction do (R171, R172). -/

namespace Sys2Proof.Machine

open Sys2Proof

/-! ### Device.setBus, field by field -/

@[simp] theorem Device.setBus_host_self (d : Device) (p : CmdPort) (b : Option BusTransaction) :
    (d.setBus p b).host p = { d.host p with bus := b } := by
  cases p <;> rfl

theorem Device.setBus_host_other (d : Device) {p q : CmdPort} (h : q ≠ p) (b : Option BusTransaction) :
    (d.setBus p b).host q = d.host q := by
  cases p <;> cases q <;> first | rfl | exact absurd rfl h

@[simp] theorem Device.setBus_ctl (d : Device) (p : CmdPort) (b : Option BusTransaction) :
    (d.setBus p b).ctl = d.ctl := by
  cases p <;> rfl

@[simp] theorem Device.setBus_setBus (d : Device) (p : CmdPort) (b c : Option BusTransaction) :
    (d.setBus p b).setBus p c = d.setBus p c := by
  cases p <;> rfl

/-- With a port's own transaction in its place the device is as it was. -/
theorem Device.setBus_same (d : Device) {p : CmdPort} {b : Option BusTransaction} (h : (d.host p).bus = b) :
    d.setBus p b = d := by
  subst h
  cases p <;> rfl

@[simp] theorem Device.setBus_replyBytes (d : Device) (p q : CmdPort) (b : Option BusTransaction) :
    (d.setBus p b).replyBytes q = d.replyBytes q := by
  cases p <;> cases q <;> rfl

/-! ### What a reset leaves of a transaction -/

@[simp] theorem BusTransaction.afterSoftReset_own (p : CmdPort) (b : Option BusTransaction) :
    BusTransaction.afterSoftReset p p b = b := by
  simp [BusTransaction.afterSoftReset]

@[simp] theorem BusTransaction.afterSoftReset_spi (b : Option BusTransaction) :
    BusTransaction.afterSoftReset .m .a b = none := rfl

@[simp] theorem BusTransaction.afterSoftReset_i2cRead (p : CmdPort) (left : Option (List Byte)) :
    BusTransaction.afterSoftReset p .m (some (.read left)) = some (.read left) := by
  cases p <;> rfl

/-- Log 21: a transaction that a SOFT_RESET does not leave as it is is ended, and is another port's. -/
theorem BusTransaction.afterSoftReset_cases (p q : CmdPort) (b : Option BusTransaction) :
    BusTransaction.afterSoftReset p q b = b ∨ q ≠ p ∧ BusTransaction.afterSoftReset p q b = none := by
  unfold BusTransaction.afterSoftReset
  split
  · exact .inl rfl
  · next h =>
    split
    · exact .inl rfl
    · exact .inr ⟨fun e => h e.symm, rfl⟩

/-- R163, R174: the command ports after a SOFT_RESET. -/
@[simp] theorem Device.softReset_host (d : Device) (p q : CmdPort) : (d.softReset p).host q = d.softResetHost p q := by
  cases q <;> rfl

/-! ### The end of a transaction -/

/-- What the end of a transaction can do: nothing while the bus is idle; for a write the command it spells joins the queue;
any other transaction is forgotten. -/
theorem State.endTransaction_cases (s : State) (p : CmdPort) :
    ((s.dev.host p).bus = none ∧ s.endTransaction p = s) ∨
      (∃ message, (s.dev.host p).bus = some (.write message) ∧
        s.endTransaction p = (s.onDevice fun d => d.setBus p none).writeMessage p message) ∨
      (∃ b, (s.dev.host p).bus = some b ∧ (∀ message, b ≠ .write message) ∧
        s.endTransaction p = s.onDevice fun d => d.setBus p none) := by
  rcases hb : (s.dev.host p).bus with _ | b
  · refine .inl ⟨rfl, ?_⟩
    simp only [State.endTransaction, hb, State.onDevice, Device.setBus_same s.dev hb]
  · cases b with
    | write message => exact .inr (.inl ⟨message, rfl, by simp only [State.endTransaction, hb]⟩)
    | selected => exact .inr (.inr ⟨_, rfl, nofun, by simp only [State.endTransaction, hb]⟩)
    | turnaround => exact .inr (.inr ⟨_, rfl, nofun, by simp only [State.endTransaction, hb]⟩)
    | read left => exact .inr (.inr ⟨_, rfl, nofun, by simp only [State.endTransaction, hb]⟩)
    | ignored => exact .inr (.inr ⟨_, rfl, nofun, by simp only [State.endTransaction, hb]⟩)

/-- R171: a write of no byte is not a command; any other becomes the last of the waiting ones. -/
theorem State.writeMessage_eq (s : State) (p : CmdPort) (message : List Byte) :
    s.writeMessage p message =
      { s with pending := s.pending ++ if message = [] then [] else [decodeMessage p message] } := by
  cases message with
  | nil => simp [State.writeMessage]
  | cons b rest => simp [State.writeMessage]

/-! ### Bytes of a transaction -/

/-- Bytes clocked into an SPI write are taken in their order, and nothing is driven. -/
theorem State.spiClockAll_write (s : State) (taken bytes : List Byte) (h : (s.dev.host .a).bus = some (.write taken)) :
    s.spiClockAll bytes =
      (s.onDevice fun d => d.setBus .a (some (.write (taken ++ bytes))), bytes.map fun _ => none) := by
  induction bytes generalizing s taken with
  | nil => simp [State.spiClockAll, State.onDevice, Device.setBus_same s.dev h]
  | cons b rest ih =>
    simp only [State.spiClockAll, State.spiClock, h]
    rw [ih _ (taken ++ [b]) (by simp)]
    simp [State.onDevice]

/-- Bytes clocked into an ignored SPI transaction change nothing. -/
theorem State.spiClockAll_ignored (s : State) (bytes : List Byte) (h : (s.dev.host .a).bus = some .ignored) :
    s.spiClockAll bytes = (s, bytes.map fun _ => none) := by
  induction bytes with
  | nil => rfl
  | cons b rest ih => simp [State.spiClockAll, State.spiClock, h, ih]

/-- Bytes clocked with no transaction under way, as after a reset, change nothing. -/
theorem State.spiClockAll_idle (s : State) (bytes : List Byte) (h : (s.dev.host .a).bus = none) :
    s.spiClockAll bytes = (s, bytes.map fun _ => none) := by
  induction bytes with
  | nil => rfl
  | cons b rest ih => simp [State.spiClockAll, State.spiClock, h, ih]

/-- Bytes of a write at Port M are taken in their order. -/
theorem State.i2cWriteBytes (s : State) (taken bytes : List Byte) (h : (s.dev.host .m).bus = some (.write taken)) :
    bytes.foldl (fun x b => (x.i2cWriteByte b).1) s =
      s.onDevice fun d => d.setBus .m (some (.write (taken ++ bytes))) := by
  induction bytes generalizing s taken with
  | nil => simp [State.onDevice, Device.setBus_same s.dev h]
  | cons b rest ih =>
    have first : (s.i2cWriteByte b).1 = s.onDevice fun d => d.setBus .m (some (.write (taken ++ [b]))) := by
      simp only [State.i2cWriteByte, h]
    rw [List.foldl_cons, first, ih _ (taken ++ [b]) (by simp)]
    simp [State.onDevice]

end Sys2Proof.Machine
end

