-- ==== Sys2Proof/Laws/Memory.lean ====
section
/-! SUPPORT. Sys2Proof/Laws/Memory.lean: frame memory: a read after a write, and every memory operation keeps the canonical
form. -/

namespace Sys2Proof.Machine

open Sys2Proof

/-! ### The canonical form -/

theorem Memory.wfAbove_cons (b : Option Nat) (a : Nat) (v : Byte) (m : Memory) :
    Memory.wfAbove b ((a, v) :: m) = true ↔
      (∀ x, b = some x → x < a) ∧ v ≠ unwrittenByte ∧ Memory.wfAbove (some a) m = true := by
  cases b <;> simp [Memory.wfAbove, and_assoc]

/-- A lower bound does. -/
theorem Memory.wfAbove_weaken {b c : Option Nat} {m : Memory} (h : Memory.wfAbove b m = true)
    (hbc : ∀ y, c = some y → ∃ x, b = some x ∧ y ≤ x) : Memory.wfAbove c m = true := by
  cases m with
  | nil => rfl
  | cons p rest =>
    obtain ⟨a, v⟩ := p
    rw [Memory.wfAbove_cons] at h ⊢
    refine ⟨fun y hy => ?_, h.2⟩
    obtain ⟨x, hx, hle⟩ := hbc y hy
    exact lt_of_le_of_lt hle (h.1 x hx)

/-- A write above the bound keeps the form above the bound. -/
theorem Memory.write_wfAbove (m : Memory) (b : Option Nat) (a : Nat) (v : Byte) (h : Memory.wfAbove b m = true)
    (ha : ∀ x, b = some x → x < a) : Memory.wfAbove b (m.write a v) = true := by
  induction m generalizing b with
  | nil =>
    unfold Memory.write
    split
    · rfl
    · rw [Memory.wfAbove_cons]
      exact ⟨ha, by assumption, rfl⟩
  | cons p rest ih =>
    obtain ⟨c, w⟩ := p
    have hc := (Memory.wfAbove_cons b c w rest).1 h
    unfold Memory.write
    split_ifs with h1 h2 h3 h4
    · exact h
    · rw [Memory.wfAbove_cons]
      refine ⟨ha, h2, ?_⟩
      rw [Memory.wfAbove_cons]
      exact ⟨fun x hx => by cases hx; exact h1, hc.2⟩
    · exact Memory.wfAbove_weaken hc.2.2 fun y hy => ⟨c, rfl, le_of_lt (hc.1 y hy)⟩
    · rw [Memory.wfAbove_cons]
      subst h3
      exact ⟨ha, h4, hc.2.2⟩
    · rw [Memory.wfAbove_cons]
      refine ⟨hc.1, hc.2.1, ih (some c) hc.2.2 fun x hx => ?_⟩
      cases hx
      omega

theorem Memory.write_wf (m : Memory) (a : Nat) (v : Byte) (h : m.wf = true) : (m.write a v).wf = true :=
  Memory.write_wfAbove m none a v h (by simp)

theorem Memory.writeBytes_wf (bs : List Byte) (m : Memory) (a : Nat) (h : m.wf = true) :
    (m.writeBytes a bs).wf = true := by
  induction bs generalizing m a with
  | nil => exact h
  | cons b rest ih => exact ih _ _ (Memory.write_wf m a b h)

theorem Memory.writeLine_wf (m : Memory) (base w h line : Nat) (y u v : List Byte) (hm : m.wf = true) :
    (m.writeLine base w h line y u v).wf = true :=
  Memory.writeBytes_wf _ _ _ (Memory.writeBytes_wf _ _ _ (Memory.writeBytes_wf _ _ _ hm))

theorem Device.composedMemory_wf (d : Device) (m : Memory) (c : Composition) (hm : m.wf = true) :
    (d.composedMemory m c).wf = true := by
  unfold Device.composedMemory
  split
  · exact Memory.writeBytes_wf _ _ _ hm
  · exact hm

/-! ### A read after a write -/

/-- Above every listed address nothing is listed. -/
theorem Memory.read_below (m : Memory) (b a : Nat) (h : Memory.wfAbove (some b) m = true) (ha : a ≤ b) :
    m.read a = unwrittenByte := by
  induction m generalizing b with
  | nil => rfl
  | cons p rest ih =>
    obtain ⟨c, w⟩ := p
    have hc := (Memory.wfAbove_cons _ c w rest).1 h
    have hbc := hc.1 b rfl
    unfold Memory.read
    rw [if_neg (by omega)]
    exact ih c hc.2.2 (by omega)

/-- A read after a write to the same address gives the byte written; every other address reads as before. -/
theorem Memory.read_write (m : Memory) (a c : Nat) (v : Byte) (h : m.wf = true) :
    (m.write a v).read c = if c = a then v else m.read c := by
  suffices H : ∀ b, Memory.wfAbove b m = true → (m.write a v).read c = if c = a then v else m.read c from H none h
  intro b hb
  clear h
  induction m generalizing b with
  | nil =>
    unfold Memory.write
    split
    · next hv => simp [Memory.read, hv]
    · simp [Memory.read]
  | cons p rest ih =>
    obtain ⟨d, w⟩ := p
    have hd := (Memory.wfAbove_cons _ d w rest).1 hb
    by_cases hca : c = a
    · subst hca
      simp only [if_true]
      unfold Memory.write
      split_ifs with h1 h2 h3 h4
      · rw [h2]
        refine Memory.read_below _ c c ?_ (le_refl c)
        rw [Memory.wfAbove_cons]
        exact ⟨fun x hx => by cases hx; exact h1, hd.2⟩
      · simp [Memory.read]
      · subst h3
        rw [h4]
        exact Memory.read_below rest c c hd.2.2 (le_refl c)
      · simp [Memory.read]
      · simp only [Memory.read, if_neg h3, ih (some d) hd.2.2, if_true]
    · simp only [if_neg hca]
      unfold Memory.write
      split_ifs with h1 h2 h3 h4
      · rfl
      · simp [Memory.read, hca]
      · subst h3
        simp [Memory.read, hca]
      · subst h3
        simp [Memory.read, hca]
      · simp only [Memory.read, ih (some d) hd.2.2, if_neg hca]

/-- Bytes written from an address up: each reads back at its place, and every address outside them reads as before. -/
theorem Memory.read_writeBytes (bs : List Byte) (m : Memory) (a c : Nat) (h : m.wf = true) :
    (m.writeBytes a bs).read c = if a ≤ c then bs.getD (c - a) (m.read c) else m.read c := by
  induction bs generalizing m a with
  | nil => simp [Memory.writeBytes]
  | cons b rest ih =>
    simp only [Memory.writeBytes]
    rw [ih _ _ (Memory.write_wf m a b h), Memory.read_write m a c b h]
    rcases lt_trichotomy a c with hlt | rfl | hgt
    · rw [if_pos (by omega : a + 1 ≤ c), if_pos (by omega : a ≤ c), if_neg (by omega : ¬ c = a),
        show c - a = (c - (a + 1)) + 1 by omega]
      rfl
    · simp
    · rw [if_neg (by omega : ¬ a + 1 ≤ c), if_neg (by omega : ¬ a ≤ c), if_neg (by omega : ¬ c = a)]

end Sys2Proof.Machine
end

