-- ==== Sys2Proof/Laws/Keeps.lean ====
section
/-! SUPPORT. Sys2Proof/Laws/Keeps.lean: what the shared operations of the sequencer, the ports, the slots and the planning
leave alone and which conditions of Safety.lean they keep: one lemma `…_keeps` per operation. -/

namespace Sys2Proof.Machine

open Sys2Proof

/-- The operation that makes `e` of `d` leaves the Mode Controller, the reply slots, the calibration records, the motion
ring, the output side and every port configuration alone, and keeps the conditions of Safety.lean. -/
structure Device.Keeps (d e : Device) : Prop where
  ctl          : e.ctl = d.ctl
  hostA        : e.hostA = d.hostA
  hostM        : e.hostM = d.hostM
  cal          : e.cal = d.cal
  motion       : e.motion = d.motion
  composePoint : e.composePoint = d.composePoint
  composing    : e.composing = d.composing
  buffers      : e.buffers = d.buffers
  link         : e.link = d.link
  config       : ∀ m, (e.port m).config = (d.port m).config
  events       : d.events.coherent → e.events.coherent
  queues       : d.queuesBounded → e.queuesBounded
  slots        : d.slotsCoherent → e.slotsCoherent
  fits         : d.fitsMemory → e.fitsMemory
  session      : d.mode.inSession = true → d.sessionCoherent → e.sessionCoherent

theorem Device.Keeps.mode {d e : Device} (h : d.Keeps e) : e.mode = d.mode := by
  simp [Device.mode, h.ctl]

theorem Device.Keeps.refl (d : Device) : d.Keeps d :=
  ⟨rfl, rfl, rfl, rfl, rfl, rfl, rfl, rfl, rfl, fun _ => rfl, id, id, id, id, fun _ => id⟩

theorem Device.Keeps.trans {d e f : Device} (h : d.Keeps e) (g : e.Keeps f) : d.Keeps f where
  ctl := g.ctl.trans h.ctl
  hostA := g.hostA.trans h.hostA
  hostM := g.hostM.trans h.hostM
  cal := g.cal.trans h.cal
  motion := g.motion.trans h.motion
  composePoint := g.composePoint.trans h.composePoint
  composing := g.composing.trans h.composing
  buffers := g.buffers.trans h.buffers
  link := g.link.trans h.link
  config m := (g.config m).trans (h.config m)
  events := g.events ∘ h.events
  queues := g.queues ∘ h.queues
  slots := g.slots ∘ h.slots
  fits := g.fits ∘ h.fits
  session hm hd := g.session (h.mode ▸ hm) (h.session hm hd)

/-- An operation that keeps everything, folded over a list. -/
theorem Device.Keeps.foldl {α : Type} (op : Device → α → Device) (h : ∀ (d : Device) (a : α), d.Keeps (op d a))
    (l : List α) (d : Device) : d.Keeps (l.foldl op d) := by
  induction l generalizing d with
  | nil => exact Device.Keeps.refl d
  | cons a rest ih => exact (h d a).trans (ih _)

/-! ### Events -/

theorem EventRecord.raise_coherent (r : EventRecord) (x : EventDetail) (h : r.coherent) : (r.raise x).coherent := by
  obtain ⟨h1, h2⟩ := h
  unfold EventRecord.raise
  split
  · next hp => exact ⟨fun hf => absurd hf (by simp [hp]), by simp⟩
  · exact ⟨fun hf => by simp at hf, by simp⟩

theorem EventRecord.raise_kind (r : EventRecord) (x : EventDetail) : (r.raise x).kind = r.kind := by
  unfold EventRecord.raise
  split <;> rfl

theorem EventSet.raise_coherent (e : EventSet) (k : EventKind) (x : EventDetail) (h : e.coherent) :
    (e.raise k x).coherent := by
  refine ⟨?_, ?_⟩
  · rw [← h.1]
    simp only [EventSet.raise, List.map_map]
    refine List.map_congr_left fun r _ => ?_
    simp only [Function.comp]
    split
    · exact EventRecord.raise_kind r x
    · rfl
  · intro r hr
    simp only [EventSet.raise, List.mem_map] at hr
    obtain ⟨q, hq, rfl⟩ := hr
    split
    · exact EventRecord.raise_coherent q x (h.2 q hq)
    · exact h.2 q hq

theorem EventUnit.record_coherent (e : EventUnit) (k : EventKind) (x : EventDetail) (h : e.coherent) :
    (e.record k x).coherent :=
  ⟨EventSet.raise_coherent _ _ _ h.1, EventSet.raise_coherent _ _ _ h.2.1, h.2.2⟩

theorem EventUnit.capture_coherent (e : EventUnit) (t : Nat) (k : EventKind) (x : EventDetail) (h : e.coherent) :
    (e.capture t k x).coherent := by
  unfold EventUnit.capture
  split
  · exact ⟨h.1, h.2.1, by simp⟩
  · exact EventUnit.record_coherent _ _ _ ⟨h.1, h.2.1, h.2.2⟩

/-- R180, R185: raising keeps the records coherent. -/
theorem EventUnit.raise_coherent (e : EventUnit) (t : Nat) (k : EventKind) (x : EventDetail) (h : e.coherent) :
    (e.raise t k x).coherent := by
  unfold EventUnit.raise
  split
  · exact EventUnit.capture_coherent _ _ _ _ (EventUnit.record_coherent _ _ _ h)
  · exact EventUnit.record_coherent _ _ _ h

theorem Device.raise_keeps (d : Device) (k : EventKind) (x : EventDetail) : d.Keeps (d.raise k x) :=
  ⟨rfl, rfl, rfl, rfl, rfl, rfl, rfl, rfl, rfl, fun _ => rfl, EventUnit.raise_coherent _ _ _ _, id, id, id, fun _ => id⟩

/-! ### Updates of one part -/

/-- An update of the View Planner that keeps the roles and does not lengthen the queue. -/
theorem Device.onPlanner_keeps (d : Device) (f : Planner → Planner)
    (hq : (f d.planner).queue.length ≤ d.planner.queue.length) (hr : (f d.planner).roles = d.planner.roles)
    (hs : ((f d.planner).state = d.planner.state ∧ (f d.planner).context.isSome = d.planner.context.isSome) ∨
      ∃ st, (f d.planner).state = some st ∧ (f d.planner).context.isSome = st.underWay) :
    d.Keeps (d.onPlanner f) := by
  refine ⟨rfl, rfl, rfl, rfl, rfl, rfl, rfl, rfl, rfl, fun _ => rfl, id, fun h => ⟨hq.trans h.1, h.2⟩, id, id, ?_⟩
  intro hm ⟨h1, h2, h3, h4⟩
  refine ⟨h1, ?_, fun m => ?_, ?_⟩
  · rcases hs with hs | ⟨st, hs, -⟩
    · simpa [hs.1] using h2
    · simpa [hs] using hm.symm
  · have := h3 m
    simpa [Device.role, hr] using this
  · rcases hs with hs | ⟨st, hs, hc⟩
    · simpa [hs.1, hs.2] using h4
    · simp [hs, hc]

/-- An update of a port that keeps its configuration, does not lengthen its expectation queue beyond four, and fills no
other slot. -/
theorem Device.onPort_keeps (d : Device) (m : PortId) (f : ModulePort → ModulePort)
    (hc : (f (d.port m)).config = (d.port m).config)
    (he : (d.port m).expectations.length ≤ 4 → (f (d.port m)).expectations.length ≤ 4)
    (hf : ∀ g, (f (d.port m)).filling = some g → (∃ g', (d.port m).filling = some g' ∧ g.slot = g'.slot) ∨
      (d.fitsMemory → g.slot < 12)) :
    d.Keeps (d.onPort m f) := by
  have hcfg : ∀ n, ((d.onPort m f).port n).config = (d.port n).config := fun n => by
    rw [Device.onPort_port_eq]
    split
    · next h => rw [h, hc]
    · rfl
  refine ⟨rfl, rfl, rfl, rfl, rfl, rfl, rfl, rfl, rfl, hcfg, id, ?_, id, ?_, fun _ => id⟩
  · intro ⟨h1, h2, h3⟩
    refine ⟨h1, h2, fun n => ?_⟩
    rw [Device.onPort_port_eq]
    split
    · exact he (h3 m)
    · exact h3 n
  · intro h
    obtain ⟨h1, h2, h3, h4, h5, h6, h7⟩ := h
    refine ⟨fun n c hn => h1 n c (by rw [← hcfg n]; exact hn), h2, h3, h4, fun n g hg => ?_, h6, h7⟩
    rw [Device.onPort_port_eq] at hg
    split at hg
    · rcases hf g hg with ⟨g', hg', hs⟩ | hlt
      · rw [hs]; exact h5 m g' hg'
      · exact hlt ⟨h1, h2, h3, h4, h5, h6, h7⟩
    · exact h5 n g hg

/-- The slots changed one by one, their numbers kept. -/
theorem Device.mapSlots_keeps (d : Device) (f : Slot → Slot) (hid : ∀ s, (f s).id = s.id)
    (hc : d.slotsCoherent → ∀ s ∈ d.slots, (f s).coherent) : d.Keeps { d with slots := d.slots.map f } := by
  refine ⟨rfl, rfl, rfl, rfl, rfl, rfl, rfl, rfl, rfl, fun _ => rfl, id, id, ?_, ?_, fun _ => id⟩
  · intro h
    refine ⟨?_, ?_⟩
    · rw [← h.1]
      simp only [List.map_map]
      exact List.map_congr_left fun s _ => hid s
    · intro s hs
      simp only [List.mem_map] at hs
      obtain ⟨x, hx, rfl⟩ := hs
      exact hc h x hx
  · intro ⟨h1, h2, h3, h4⟩
    refine ⟨h1, h2, ?_, h4⟩
    intro s hs
    simp only [List.mem_map] at hs
    obtain ⟨x, hx, rfl⟩ := hs
    rw [hid]
    exact h3 x hx

theorem Slot.freed_coherent (id : Nat) : (Slot.freed id).coherent := by simp [Slot.freed, Slot.coherent]

theorem Slot.free_coherent (s : Slot) : s.free.coherent := Slot.freed_coherent s.id

theorem Device.onSlot_keeps (d : Device) (id : Nat) (f : Slot → Slot) (hid : ∀ s, (f s).id = s.id)
    (hc : ∀ s, s.coherent → (f s).coherent) : d.Keeps (d.onSlot id f) := by
  refine Device.mapSlots_keeps d _ (fun s => ?_) fun h s hs => ?_
  · split
    · exact hid s
    · rfl
  · split
    · exact hc s (h.2 s hs)
    · exact h.2 s hs

theorem Device.freeSlot_keeps (d : Device) (id : Nat) : d.Keeps (d.onSlot id Slot.free) :=
  Device.onSlot_keeps d id _ (fun _ => rfl) fun s _ => Slot.free_coherent s

/-- Slots freed by a test on each. -/
theorem Device.freeWhere_keeps (d : Device) (t : Slot → Bool) :
    d.Keeps { d with slots := d.slots.map fun s => if t s = true then s.free else s } := by
  refine Device.mapSlots_keeps d _ (fun s => ?_) fun h s hs => ?_
  · split <;> rfl
  · split
    · exact Slot.free_coherent s
    · exact h.2 s hs

/-- A new probe context for two slots that exist. -/
theorem Device.withProbe_keeps (d : Device) (c : ProbeContext)
    (h : d.fitsMemory → c.activeSlot < 12 ∧ c.destSlot < 12) : d.Keeps { d with probe := some c } := by
  refine ⟨rfl, rfl, rfl, rfl, rfl, rfl, rfl, rfl, rfl, fun _ => rfl, id, id, id, ?_, fun _ => id⟩
  intro hf
  obtain ⟨h1, h2, h3, h4, h5, h6, h7⟩ := hf
  exact ⟨h1, h2, h3, h4, h5, fun x hx => by cases hx; exact h ⟨h1, h2, h3, h4, h5, h6, h7⟩, h7⟩

/-! ### Slots -/

theorem Device.freeUnheld_keeps (d : Device) (m : PortId) : d.Keeps (d.freeUnheld m) :=
  (Device.freeWhere_keeps d fun s => s.ownedBy m && s.unheld).trans
    (Device.onPort_keeps _ _ _ rfl id fun g hg => by simp at hg)

theorem Device.supersede_keeps (d : Device) (m : PortId) : d.Keeps (d.supersede m) := by
  unfold Device.supersede
  split
  · exact Device.Keeps.refl d
  · exact Device.freeWhere_keeps d fun s => s.ownedBy m && decide (s.state = .ready) && _

theorem Device.supersedeAll_keeps (d : Device) : d.Keeps d.supersedeAll :=
  Device.Keeps.foldl _ Device.supersede_keeps _ d

theorem Device.holdSlot_keeps (d : Device) (id : Nat) : d.Keeps (d.holdSlot id) :=
  Device.onSlot_keeps d id _ (fun _ => rfl) fun s _ => by simp [Slot.coherent]

/-- The slot found for a number is the only one of that number. -/
theorem Device.slot?_unique {d : Device} {id : Nat} {s : Slot} (h : d.slotsCoherent) (hs : d.slot? id = some s) :
    s ∈ d.slots ∧ s.id = id ∧ ∀ x ∈ d.slots, x.id = id → x = s := by
  have hmem := List.mem_of_find?_eq_some hs
  have hid : s.id = id := by simpa using List.find?_some hs
  refine ⟨hmem, hid, fun x hx hxi => ?_⟩
  have hn : (d.slots.map Slot.id).Nodup := by rw [h.1]; exact List.nodup_range
  exact List.inj_on_of_nodup_map hn hx hmem (hxi.trans hid.symm)

theorem Device.releaseSlot_keeps (d : Device) (id : Nat) : d.Keeps (d.releaseSlot id) := by
  unfold Device.releaseSlot
  split
  · exact Device.Keeps.refl d
  · next s hs =>
    split_ifs with h1 h2 h3
    · exact Device.Keeps.refl d
    · refine Device.mapSlots_keeps d _ (fun x => by split <;> rfl) fun h x hx => ?_
      split
      · next hxi =>
        rw [(Device.slot?_unique h hs).2.2 x hx hxi]
        have hheld : s.state = .held := by simpa using h1
        simp only [Slot.coherent, hheld]
        omega
      · exact h.2 x hx
    · exact Device.freeSlot_keeps d id
    · split
      · exact Device.freeSlot_keeps d id
      · exact (Device.onSlot_keeps d id (fun x => { x with state := .ready, useCount := 0 }) (fun _ => rfl)
          fun x _ => rfl).trans (Device.supersede_keeps _ _)

end Sys2Proof.Machine
end

