-- ==== Sys2Proof/Laws/KeepsSequencer.lean ====
section
/-! SUPPORT. Sys2Proof/Laws/KeepsSequencer.lean: the operations of the hand-off sequencer keep what Laws/Keeps.lean says. -/

namespace Sys2Proof.Machine

open Sys2Proof

/-! ### Roles -/

theorem Device.standbyRole_ne_none (d : Device) (m : PortId) : d.standbyRole m ≠ .none := by
  unfold Device.standbyRole
  split
  · split <;> simp
  · simp

theorem Device.restRole_ne_none (d : Device) (m : PortId) : d.restRole m ≠ .none := by
  unfold Device.restRole
  split
  · exact Device.standbyRole_ne_none d m
  · simp

theorem Device.setRolePlanner_keeps (d : Device) (m : PortId) (r : Role) (hr : r ≠ .none) :
    d.Keeps (d.onPlanner fun p => { p with roles := p.roles.set m r }) := by
  refine ⟨rfl, rfl, rfl, rfl, rfl, rfl, rfl, rfl, rfl, fun _ => rfl, id, id, id, id, ?_⟩
  intro hm ⟨h1, h2, h3, h4⟩
  refine ⟨h1, h2, fun n => ?_, h4⟩
  have hn := h3 n
  simp only [Device.role, Device.onPlanner_planner, Device.onPlanner_mode, PerPort.get_set_eq] at hn ⊢
  split
  · simp [hr, hm]
  · exact hn

theorem Device.setRole_keeps (d : Device) (m : PortId) (r : Role) (hr : r ≠ .none) : d.Keeps (d.setRole m r) := by
  unfold Device.setRole
  dsimp only
  split
  · exact (Device.setRolePlanner_keeps d m r hr).trans (Device.freeUnheld_keeps _ m)
  · exact Device.setRolePlanner_keeps d m r hr

theorem Device.setBar_keeps (d : Device) (m : PortId) (n : Nat) : d.Keeps (d.setBar m n) :=
  Device.onPlanner_keeps d _ (le_refl _) rfl (.inl ⟨rfl, rfl⟩)

theorem Device.recomputeApplied_keeps (d : Device) : d.Keeps d.recomputeApplied := by
  unfold Device.recomputeApplied
  split
  · exact Device.Keeps.refl d
  · exact Device.onPlanner_keeps d _ (le_refl _) rfl (.inl ⟨rfl, rfl⟩)

/-! ### Endings -/

theorem Device.endHandoff_keeps (d : Device) : d.Keeps d.endHandoff :=
  Device.onPlanner_keeps d _ (le_refl _) rfl (.inr ⟨.steady, rfl, rfl⟩)

theorem Device.changeActive_keeps (d : Device) (old : Option PortId) (new : PortId) (reason : ChangeReason) (k : Nat) :
    d.Keeps (d.changeActive old new reason k) := by
  have hrest : d.Keeps (match old with
      | some a => d.setRole a (d.restRole a)
      | none => d) := by
    cases old with
    | none => exact Device.Keeps.refl d
    | some a => exact Device.setRole_keeps d a _ (Device.restRole_ne_none d a)
  exact ((((hrest.trans (Device.setRole_keeps _ new .active (by simp))).trans (Device.endHandoff_keeps _)).trans
    (Device.onPlanner_keeps _ _ (le_refl _) rfl (.inl ⟨rfl, rfl⟩))).trans (Device.raise_keeps _ _ _))

theorem Device.abandon_keeps (d : Device) (reason : AbandonReason) (k : Nat) : d.Keeps (d.abandon reason k) := by
  unfold Device.abandon
  split
  · exact Device.Keeps.refl d
  · next c _ =>
    refine ((Device.setRole_keeps d c.dest _ (Device.restRole_ne_none d c.dest)).trans
      (Device.endHandoff_keeps _)).trans ?_
    dsimp only
    split
    · exact (Device.setBar_keeps _ _ _).trans (Device.raise_keeps _ _ _)
    · exact Device.raise_keeps _ _ _

theorem Device.abort_keeps (d : Device) (m : PortId) (r : LossReport) : d.Keeps (d.abort m r) :=
  ((((Device.setRole_keeps d m _ (Device.restRole_ne_none d m)).trans (Device.setBar_keeps _ _ _)).trans
    (Device.endHandoff_keeps _)).trans (Device.raise_keeps _ _ _)).trans (Device.recomputeApplied_keeps _)

theorem Device.loseActive_keeps (d : Device) (m : PortId) (r : LossReport) : d.Keeps (d.loseActive m r) := by
  unfold Device.loseActive
  split
  · exact (Device.changeActive_keeps _ _ _ _ _).trans (Device.recomputeApplied_keeps _)
  · split
    · exact Device.recomputeApplied_keeps d
    · exact (((Device.setRole_keeps d m .cold (by simp)).trans
        (Device.onPlanner_keeps _ _ (le_refl _) rfl (.inr ⟨.noSource, rfl, rfl⟩))).trans
        (Device.raise_keeps _ _ _)).trans (Device.recomputeApplied_keeps _)

/-! ### Reports -/

theorem Device.reportLoss_keeps (d : Device) (m : PortId) (r : LossReport) : d.Keeps (d.reportLoss m r) := by
  unfold Device.reportLoss
  split
  · exact Device.Keeps.refl d
  · split
    · exact (Device.changeActive_keeps _ _ _ _ _).trans (Device.recomputeApplied_keeps _)
    · exact Device.loseActive_keeps d m r
    · exact Device.abort_keeps d m r
    · split
      · exact Device.Keeps.refl d
      · exact (Device.setRole_keeps d m .cold (by simp)).trans (Device.recomputeApplied_keeps _)

/-- R54: outside STREAMING a report changes nothing. -/
theorem Device.reportLoss_outside (d : Device) (m : PortId) (r : LossReport) (h : d.mode ≠ .streaming) :
    d.reportLoss m r = d := by
  simp [Device.reportLoss, h]

theorem Device.reportLinked_keeps (d : Device) (m : PortId) : d.Keeps (d.reportLinked m) := by
  unfold Device.reportLinked
  split
  · exact (Device.setRole_keeps d m _ (Device.standbyRole_ne_none d m)).trans (Device.recomputeApplied_keeps _)
  · exact Device.Keeps.refl d

theorem Device.reportLinked_outside (d : Device) (m : PortId) (h : d.mode ≠ .streaming) : d.reportLinked m = d := by
  simp [Device.reportLinked, h]

/-! ### The probe start -/

theorem Device.slotOf_mem {d : Device} {m : PortId} {k : Nat} {s : Slot} (h : d.slotOf m k = some s) : s ∈ d.slots :=
  List.mem_of_find?_eq_some h

theorem Device.pairQuery_mem {d : Device} {a t : PortId} {x y : Slot} (h : d.pairQuery a t = some (x, y)) :
    x ∈ d.slots ∧ y ∈ d.slots := by
  unfold Device.pairQuery at h
  split at h
  · exact absurd h (by simp)
  · split at h
    · next h1 h2 =>
      cases h
      exact ⟨Device.slotOf_mem h1, Device.slotOf_mem h2⟩
    · exact absurd h (by simp)

theorem Device.probePair_mem {d : Device} {a t : PortId} {x y : Slot} (h : d.probePair = some (a, t, x, y)) :
    x ∈ d.slots ∧ y ∈ d.slots := by
  unfold Device.probePair at h
  split at h
  · split at h
    · simp only [Option.map_eq_some_iff, Prod.mk.injEq, Prod.exists] at h
      obtain ⟨x', y', hq, -, -, rfl, rfl⟩ := h
      exact Device.pairQuery_mem hq
    · exact absurd h (by simp)
  · exact absurd h (by simp)

theorem Device.startProbe_keeps (d : Device) (a t : PortId) (x y : Slot) (zoom : Nat) (hx : x ∈ d.slots)
    (hy : y ∈ d.slots) : d.Keeps (d.startProbe a t x y zoom) := by
  have hh := (Device.holdSlot_keeps d x.id).trans (Device.holdSlot_keeps _ y.id)
  refine ⟨rfl, rfl, rfl, rfl, rfl, rfl, rfl, rfl, rfl, fun _ => rfl, hh.events, hh.queues, hh.slots, ?_, hh.session⟩
  intro hf
  obtain ⟨h1, h2, h3, h4, h5, h6, h7⟩ := hh.fits hf
  refine ⟨h1, h2, h3, h4, h5, ?_, h7⟩
  intro c hc
  cases hc
  exact ⟨hf.2.2.1 x hx, hf.2.2.1 y hy⟩

theorem Device.probeCheck_keeps (d : Device) (zoom : Nat) : d.Keeps (d.probeCheck zoom) := by
  unfold Device.probeCheck
  split
  · next h => exact Device.startProbe_keeps d _ _ _ _ _ (Device.probePair_mem h).1 (Device.probePair_mem h).2
  · exact Device.Keeps.refl d

theorem Device.frameReady_keeps (d : Device) (m : PortId) : d.Keeps (d.frameReady m) := by
  unfold Device.frameReady
  split
  · exact Device.probeCheck_keeps d _
  · exact Device.Keeps.refl d

/-! ### Frame outcomes -/

theorem Device.takeOutcome_keeps (d : Device) (m : PortId) (o : FrameOutcome) : d.Keeps (d.takeOutcome m o) := by
  unfold Device.takeOutcome
  split
  · next hs hc =>
    split
    · exact Device.Keeps.refl d
    · have hk : ∀ c' : HandoffContext, d.Keeps (d.onPlanner fun p => { p with context := some c' }) := fun c' =>
        Device.onPlanner_keeps d _ (le_refl _) rfl (.inl ⟨rfl, by simp [hc]⟩)
      split
      · split
        · exact hk _
        · exact (Device.onPlanner_keeps d _ (le_refl _) rfl (.inr ⟨.probe, rfl, rfl⟩)).trans
            (Device.probeCheck_keeps _ _)
      · exact hk _
      · exact hk _
      · exact hk _
      · exact Device.Keeps.refl d
  · exact Device.Keeps.refl d

end Sys2Proof.Machine
end

