-- ==== Sys2Proof/Laws/KeepsPorts.lean ====
section
/-! SUPPORT. Sys2Proof/Laws/KeepsPorts.lean: the operations of the Module Ports keep what Laws/Keeps.lean says, and outside
STREAMING they leave the View Planner alone. -/

namespace Sys2Proof.Machine

open Sys2Proof

/-- `Keeps`, and outside STREAMING the View Planner is left alone. -/
structure Device.PortKeeps (d e : Device) : Prop where
  keeps   : d.Keeps e
  outside : d.mode ≠ .streaming → e.planner = d.planner

theorem Device.PortKeeps.refl (d : Device) : d.PortKeeps d := ⟨Device.Keeps.refl d, fun _ => rfl⟩

theorem Device.PortKeeps.trans {d e f : Device} (h : d.PortKeeps e) (g : e.PortKeeps f) : d.PortKeeps f :=
  ⟨h.keeps.trans g.keeps, fun hm => (g.outside (by rw [h.keeps.mode]; exact hm)).trans (h.outside hm)⟩

theorem Device.PortKeeps.foldl {α : Type} (op : Device → α → Device) (h : ∀ (d : Device) (a : α), d.PortKeeps (op d a))
    (l : List α) (d : Device) : d.PortKeeps (l.foldl op d) := by
  induction l generalizing d with
  | nil => exact Device.PortKeeps.refl d
  | cons a rest ih => exact (h d a).trans (ih _)

/-- The session's conditions are kept in every mode. -/
theorem Device.PortKeeps.session {d e : Device} (h : d.PortKeeps e) (hd : d.sessionCoherent) : e.sessionCoherent := by
  by_cases hm : d.mode = .streaming
  · exact h.keeps.session (by rw [hm]; rfl) hd
  · have hp := h.outside hm
    have hc := h.keeps.ctl
    simpa [Device.sessionCoherent, Device.mode, Device.role, hp, hc] using hd

/-! ### Primitive updates -/

theorem Device.raise_portKeeps (d : Device) (k : EventKind) (x : EventDetail) : d.PortKeeps (d.raise k x) :=
  ⟨Device.raise_keeps d k x, fun _ => rfl⟩

theorem Device.onPort_portKeeps (d : Device) (m : PortId) (f : ModulePort → ModulePort)
    (hc : (f (d.port m)).config = (d.port m).config)
    (he : (d.port m).expectations.length ≤ 4 → (f (d.port m)).expectations.length ≤ 4)
    (hf : ∀ g, (f (d.port m)).filling = some g → (∃ g', (d.port m).filling = some g' ∧ g.slot = g'.slot) ∨
      (d.fitsMemory → g.slot < 12)) : d.PortKeeps (d.onPort m f) :=
  ⟨Device.onPort_keeps d m f hc he hf, fun _ => rfl⟩

/-- An update of a port that leaves its configuration, expectation queue and frame being filled as they are. -/
theorem Device.onPort_plain (d : Device) (m : PortId) (f : ModulePort → ModulePort)
    (hc : ∀ q, (f q).config = q.config := by intro _; rfl)
    (he : ∀ q, (f q).expectations = q.expectations := by intro _; rfl)
    (hf : ∀ q, (f q).filling = q.filling := by intro _; rfl) :
    d.PortKeeps (d.onPort m f) :=
  Device.onPort_portKeeps d m f (hc _) (by rw [he]; exact id) fun g hg => by rw [hf] at hg; exact .inl ⟨g, hg, rfl⟩

/-- An update of a port that ends the frame it was filling. -/
theorem Device.onPort_emptied (d : Device) (m : PortId) (f : ModulePort → ModulePort)
    (hc : ∀ q, (f q).config = q.config := by intro _; rfl)
    (he : ∀ q, (f q).expectations = q.expectations := by intro _; rfl)
    (hf : ∀ q, (f q).filling = none := by intro _; rfl) : d.PortKeeps (d.onPort m f) :=
  Device.onPort_portKeeps d m f (hc _) (by rw [he]; exact id) fun g hg => by rw [hf] at hg; exact absurd hg (by simp)

theorem Device.onSlot_portKeeps (d : Device) (id : Nat) (f : Slot → Slot) (hid : ∀ s, (f s).id = s.id)
    (hc : ∀ s, s.coherent → (f s).coherent) : d.PortKeeps (d.onSlot id f) :=
  ⟨Device.onSlot_keeps d id f hid hc, fun _ => rfl⟩

theorem Device.freeUnheld_portKeeps (d : Device) (m : PortId) : d.PortKeeps (d.freeUnheld m) :=
  ⟨Device.freeUnheld_keeps d m, fun _ => rfl⟩

theorem Device.supersede_portKeeps (d : Device) (m : PortId) : d.PortKeeps (d.supersede m) :=
  ⟨Device.supersede_keeps d m, fun _ => by unfold Device.supersede; split <;> rfl⟩

theorem Device.probeCheck_planner (d : Device) (zoom : Nat) : (d.probeCheck zoom).planner = d.planner := by
  unfold Device.probeCheck
  split
  · rfl
  · rfl

theorem Device.frameReady_portKeeps (d : Device) (m : PortId) : d.PortKeeps (d.frameReady m) :=
  ⟨Device.frameReady_keeps d m, fun _ => by
    unfold Device.frameReady
    split
    · exact Device.probeCheck_planner d _
    · rfl⟩

theorem Device.reportLoss_portKeeps (d : Device) (m : PortId) (r : LossReport) : d.PortKeeps (d.reportLoss m r) :=
  ⟨Device.reportLoss_keeps d m r, fun h => by rw [Device.reportLoss_outside d m r h]⟩

theorem Device.reportLinked_portKeeps (d : Device) (m : PortId) : d.PortKeeps (d.reportLinked m) :=
  ⟨Device.reportLinked_keeps d m, fun h => by rw [Device.reportLinked_outside d m h]⟩

theorem Device.takeOutcome_portKeeps (d : Device) (m : PortId) (o : FrameOutcome) : d.PortKeeps (d.takeOutcome m o) := by
  refine ⟨Device.takeOutcome_keeps d m o, fun h => ?_⟩
  unfold Device.takeOutcome
  split
  · rw [if_pos (Or.inr h)]
  · rfl

/-! ### Down and up -/

theorem Device.takeDown_portKeeps (d : Device) (m : PortId) (st : PortState) : d.PortKeeps (d.takeDown m st) :=
  (Device.onPort_portKeeps d m _ rfl (fun _ => by simp) fun g hg => .inl ⟨g, hg, rfl⟩).trans
    (Device.freeUnheld_portKeeps _ m)

theorem Device.reportDownIf_portKeeps (d : Device) (m : PortId) (b : Bool) (cause : DownCause) :
    d.PortKeeps (d.reportDownIf m b cause) := by
  unfold Device.reportDownIf
  split
  · exact Device.reportLoss_portKeeps d m _
  · exact Device.PortKeeps.refl d

theorem Device.bringUp_portKeeps (d : Device) (m : PortId) (a : Allowance) (cause : DownCause) :
    d.PortKeeps (d.bringUp m a cause) :=
  ((Device.takeDown_portKeeps d m .resetting).trans
    (Device.onPort_plain _ m _)).trans
    (Device.reportDownIf_portKeeps _ m _ _)

theorem Device.disable_portKeeps (d : Device) (m : PortId) : d.PortKeeps (d.disable m) :=
  (Device.takeDown_portKeeps d m .off).trans (Device.reportDownIf_portKeeps _ m _ _)

theorem Device.openSeek_portKeeps (d : Device) (m : PortId) : d.PortKeeps (d.openSeek m) :=
  Device.onPort_plain d m _

theorem Device.endSeekWindow_portKeeps (d : Device) (m : PortId) : d.PortKeeps (d.endSeekWindow m) := by
  unfold Device.endSeekWindow
  split
  · exact Device.onPort_plain d m _
  · exact (Device.takeDown_portKeeps d m .dead).trans (Device.raise_portKeeps _ _ _)

theorem Device.frameFault_portKeeps (d : Device) (m : PortId) (k : Option Nat) (r : FaultReason) :
    d.PortKeeps (d.frameFault m k r) :=
  (Device.raise_portKeeps d _ _).trans (Device.onPort_plain _ m _)

theorem Device.linkUp_portKeeps (d : Device) (m : PortId) (lanes : Lanes) (h : FrameHeader) :
    d.PortKeeps (d.linkUp m lanes h) :=
  ((Device.onPort_plain d m _).trans (Device.raise_portKeeps _ _ _)).trans
    (Device.reportLinked_portKeeps _ m)

theorem Device.seekHeader_portKeeps (d : Device) (m : PortId) (h : FrameHeader) : d.PortKeeps (d.seekHeader m h) := by
  unfold Device.seekHeader
  split
  · exact Device.PortKeeps.refl d
  · split
    · exact Device.PortKeeps.refl d
    · split
      · exact Device.frameFault_portKeeps d m _ _
      · exact Device.linkUp_portKeeps d m _ h

/-! ### Health -/

theorem Device.badPeriod_portKeeps (d : Device) (m : PortId) (k : Nat) (why : BadReason) :
    d.PortKeeps (d.badPeriod m k why) := by
  have hcounted := Device.onPort_plain d m (fun q => { q with badPeriods := min 15 (q.badPeriods + 1), goodRun := 0 })
  unfold Device.badPeriod
  dsimp only
  split_ifs
  · exact (((hcounted.trans (Device.takeOutcome_portKeeps _ m _)).trans
      (Device.onPort_plain _ m _)).trans
      (Device.raise_portKeeps _ _ _)).trans (Device.reportLoss_portKeeps _ m _)
  · exact hcounted.trans (Device.takeOutcome_portKeeps _ m _)

theorem Device.countMissed_portKeeps (d : Device) (m : PortId) (k : Nat) : d.PortKeeps (d.countMissed m k) :=
  (Device.onPort_plain d m _).trans (Device.badPeriod_portKeeps _ m k _)

theorem Device.goodPeriod_portKeeps (d : Device) (m : PortId) (k : Nat) : d.PortKeeps (d.goodPeriod m k) := by
  have hcounted := Device.onPort_plain d m (fun q => { q with badPeriods := 0, goodRun := min 2 (q.goodRun + 1) })
  unfold Device.goodPeriod
  dsimp only
  split
  · split
    · exact (hcounted.trans (Device.onPort_plain _ m _)).trans
        (Device.raise_portKeeps _ _ _)
    · exact hcounted.trans (Device.onPort_plain _ m _)
  · exact hcounted

theorem Device.autoReset_portKeeps (d : Device) (m : PortId) : d.PortKeeps (d.autoReset m) :=
  Device.bringUp_portKeeps d m _ _

theorem Device.advanceStall_portKeeps (d : Device) (m : PortId) : d.PortKeeps (d.advanceStall m) := by
  unfold Device.advanceStall
  split
  · exact Device.autoReset_portKeeps d m
  · split
    · exact Device.onPort_plain d m _
    · exact Device.PortKeeps.refl d

/-! ### FSYNC and expectations -/

theorem Device.requestFsync_portKeeps (d : Device) (k : Nat) (m : PortId) : d.PortKeeps (d.requestFsync k m) := by
  unfold Device.requestFsync
  split
  · exact Device.onPort_plain d m _
  · exact Device.PortKeeps.refl d

theorem Device.issueFsync_portKeeps (d : Device) (m : PortId) (e : Expectation) : d.PortKeeps (d.issueFsync m e) := by
  have htaken := Device.onPort_plain d m (fun q => { q with pendingFsync := none })
  unfold Device.issueFsync
  dsimp only
  split
  · next hlen =>
    have hpulsed := htaken.trans (Device.onPort_plain _ m
      (fun q => { q with fsyncIssued := true, lastPulse := some e.issue }))
    split
    · exact hpulsed.trans (Device.countMissed_portKeeps _ m _)
    · refine hpulsed.trans (Device.onPort_portKeeps _ m _ rfl (fun _ => ?_) fun g hg => .inl ⟨g, hg, rfl⟩)
      simp
      omega
  · exact htaken.trans (Device.countMissed_portKeeps _ m _)

theorem Device.passDeadline_portKeeps (d : Device) (m : PortId) (e : Expectation) (rest : List Expectation)
    (h : (d.port m).expectations = e :: rest) : d.PortKeeps (d.passDeadline m e rest) := by
  refine (Device.onPort_portKeeps d m _ rfl (fun hl => ?_) fun g hg => .inl ⟨g, hg, rfl⟩).trans
    (Device.countMissed_portKeeps _ m _)
  simp [h] at hl ⊢
  omega

/-! ### Frame reception -/

theorem Device.faultFill_portKeeps (d : Device) (m : PortId) (f : Fill) (r : FaultReason) :
    d.PortKeeps (d.faultFill m f r) := by
  have hfreed := (Device.onSlot_portKeeps d f.slot Slot.free (fun _ => rfl) fun s _ => Slot.free_coherent s).trans
    (Device.onPort_emptied _ m fun q => { q with filling := none })
  unfold Device.faultFill
  exact (hfreed.trans (Device.frameFault_portKeeps _ m _ r)).trans (Device.badPeriod_portKeeps _ m _ _)

theorem Device.takeHeader_portKeeps (d : Device) (m : PortId) (h : FrameHeader) : d.PortKeeps (d.takeHeader m h) :=
  Device.onPort_plain d m _

/-- R128: a slot given is one of the twelve, and the others are left. -/
theorem Device.allocate_portKeeps (d : Device) (m : PortId) (period centre exposure : Nat) (settled : Bool) :
    d.PortKeeps (d.allocate m period centre exposure settled).2 ∧
      ∀ id, (d.allocate m period centre exposure settled).1 = some id → ∃ s ∈ d.slots, s.id = id ∧ s.state = .free := by
  unfold Device.allocate
  split
  · split
    · next s hs =>
      refine ⟨Device.onSlot_portKeeps d s.id _ (fun _ => rfl) fun x _ => rfl, fun id hid => ?_⟩
      cases hid
      exact ⟨s, List.mem_of_find?_eq_some hs, rfl, by simpa using List.find?_some hs⟩
    · exact ⟨Device.PortKeeps.refl d, fun id hid => by simp at hid⟩
  · exact ⟨Device.PortKeeps.refl d, fun id hid => by simp at hid⟩

theorem Device.requestSlot_portKeeps (d : Device) (m : PortId) (h : FrameHeader) (e : Expectation) :
    d.PortKeeps (d.requestSlot m h e) := by
  unfold Device.requestSlot
  dsimp only
  have hal := Device.allocate_portKeeps d m e.period
    (e.issue + (if h.exposure.toNat = 0 then (d.port m).newestExposure else h.exposure.toNat) / 2)
    (if h.exposure.toNat = 0 then (d.port m).newestExposure else h.exposure.toNat) h.settled
  split
  · next id given heq =>
    rw [heq] at hal
    have hfit : given.fitsMemory → id < 12 := fun hg => by
      obtain ⟨s, hs, hid, hfree⟩ := hal.2 id rfl
      have hmem : ∃ x ∈ given.slots, x.id = id := by
        have : given.slots.map Slot.id = d.slots.map Slot.id := by
          unfold Device.allocate at heq
          split at heq
          · split at heq
            · cases heq
              simp only [Device.onSlot_slots, List.map_map]
              refine List.map_congr_left fun x _ => ?_
              simp only [Function.comp]
              split <;> rfl
            · exact absurd heq (by simp)
          · exact absurd heq (by simp)
        have hin : id ∈ given.slots.map Slot.id := by rw [this]; exact List.mem_map.2 ⟨s, hs, hid⟩
        simpa using hin
      obtain ⟨x, hx, rfl⟩ := hmem
      exact hg.2.2.1 x hx
    exact hal.1.trans (Device.onPort_portKeeps _ m _ rfl (fun hl => hl) fun g hg => .inr fun hf => by
      simp at hg; rw [← hg]; exact hfit hf)
  · next refused heq =>
    rw [heq] at hal
    exact ((hal.1.trans (Device.raise_portKeeps _ _ _)).trans
      (Device.onPort_plain _ m _)).trans (Device.takeOutcome_portKeeps _ m _)

theorem Device.matchFrame_portKeeps (d : Device) (m : PortId) (h : FrameHeader) : d.PortKeeps (d.matchFrame m h) := by
  unfold Device.matchFrame
  dsimp only
  split
  · split
    · split
      · exact Device.onPort_plain d m _
      · exact Device.PortKeeps.refl d
    · split
      · exact (Device.takeHeader_portKeeps d m h).trans (Device.frameFault_portKeeps _ m _ _)
      · exact Device.frameFault_portKeeps d m _ _
  · next e rest he =>
    have hconsumed : d.PortKeeps (d.onPort m fun q => { q with expectations := rest }) := by
      refine Device.onPort_portKeeps d m _ rfl (fun hl => ?_) fun g hg => .inl ⟨g, hg, rfl⟩
      simp [he] at hl ⊢
      omega
    split
    · exact (hconsumed.trans (Device.frameFault_portKeeps _ m _ _)).trans (Device.badPeriod_portKeeps _ m _ _)
    · split
      · exact ((hconsumed.trans (Device.takeHeader_portKeeps _ m h)).trans
          (Device.frameFault_portKeeps _ m _ _)).trans (Device.badPeriod_portKeeps _ m _ _)
      · exact (hconsumed.trans (Device.takeHeader_portKeeps _ m h)).trans (Device.requestSlot_portKeeps _ m h e)

theorem Device.takeFrameStart_portKeeps (d : Device) (m : PortId) (h : FrameHeader) :
    d.PortKeeps (d.takeFrameStart m h) := by
  have hmatch : d.PortKeeps (if d.mode ≠ .streaming then d else
      match (d.port m).filling with
      | some f => (d.faultFill m f .short).matchFrame m h
      | none => d.matchFrame m h) := by
    split
    · exact Device.PortKeeps.refl d
    · split
      · exact (Device.faultFill_portKeeps d m _ _).trans (Device.matchFrame_portKeeps _ m h)
      · exact Device.matchFrame_portKeeps d m h
  unfold Device.takeFrameStart
  split
  · exact Device.seekHeader_portKeeps d m h
  · exact Device.PortKeeps.refl d
  · exact Device.PortKeeps.refl d
  · exact Device.PortKeeps.refl d
  · exact hmatch
  · exact hmatch

theorem Device.completeFrame_portKeeps (d : Device) (m : PortId) (f : Fill) (s : Slot) :
    d.PortKeeps (d.completeFrame m f s) := by
  have hstored := ((Device.onSlot_portKeeps d f.slot (fun x => { x with state := .ready, useCount := 0 }) (fun _ => rfl)
    fun _ _ => rfl).trans (Device.onPort_emptied _ m (fun q => { q with filling := none }))).trans (Device.supersede_portKeeps _ m)
  have hheard := (((hstored.trans (Device.frameReady_portKeeps _ m)).trans
    (Device.onPort_plain _ m (fun q => { q with newestExposure := s.exposure, good := bump q.good }))).trans (Device.goodPeriod_portKeeps _ m (s.period.getD 0))).trans
    (Device.takeOutcome_portKeeps _ m (.good s.settled))
  unfold Device.completeFrame
  dsimp only
  split
  · refine hheard.trans (Device.onSlot_portKeeps _ f.slot _ (fun x => ?_) fun x hx => ?_)
    · split <;> rfl
    · split
      · exact Slot.free_coherent x
      · exact hx
  · exact hheard

theorem Device.takeFrameEnd_portKeeps (d : Device) (m : PortId) : d.PortKeeps (d.takeFrameEnd m) := by
  unfold Device.takeFrameEnd
  split
  · exact Device.PortKeeps.refl d
  · split
    · exact Device.PortKeeps.refl d
    · split
      · exact Device.faultFill_portKeeps d m _ _
      · exact Device.completeFrame_portKeeps d m _ _

end Sys2Proof.Machine
end

