-- ==== Sys2Proof/Laws/KeepsPlanning.lean ====
section
/-! SUPPORT. Sys2Proof/Laws/KeepsPlanning.lean: the planning of a period and the period start keep what Laws/Keeps.lean
says; so does the completion of a probe. -/

namespace Sys2Proof.Machine

open Sys2Proof

/-- R45, R46: the ramp step leaves everything of the View Planner but the nominal, the queue and the ramp, and does not
lengthen the queue. -/
theorem Planner.rampStep_frame (p : Planner) :
    p.rampStep.1.queue.length ≤ p.queue.length ∧ p.rampStep.1.roles = p.roles ∧ p.rampStep.1.state = p.state ∧
      p.rampStep.1.context = p.context ∧ p.rampStep.1.plans = p.plans ∧ p.rampStep.1.bars = p.bars ∧
      p.rampStep.1.hold = p.hold ∧ p.rampStep.1.guard = p.guard ∧ p.rampStep.1.markPending = p.markPending ∧
      p.rampStep.1.captureSelect = p.captureSelect ∧ p.rampStep.1.lastChange = p.lastChange := by
  unfold Planner.rampStep
  split
  · dsimp only
    split <;> simp
  · split
    · simp
    · next h =>
      split <;> simp [h]

theorem Device.rampStep_keeps (d : Device) : d.Keeps { d with planner := d.planner.rampStep.1 } :=
  Device.onPlanner_keeps d (fun p => p.rampStep.1) (Planner.rampStep_frame _).1 (Planner.rampStep_frame _).2.1
    (.inl ⟨(Planner.rampStep_frame _).2.2.1, by simp [(Planner.rampStep_frame d.planner).2.2.2.1]⟩)

theorem Device.countDown_keeps (d : Device) (k : Nat) : d.Keeps (d.countDown k) := by
  have hc := Device.onPlanner_keeps d
    (fun p => { p with bars := p.bars.map (· - 1), hold := p.hold - 1, guard := p.guard - 1 }) (le_refl _) rfl
    (.inl ⟨rfl, rfl⟩)
  unfold Device.countDown
  dsimp only
  split
  · exact hc.trans (Device.raise_keeps _ _ _)
  · exact hc

theorem Device.beginHandoff_keeps (d : Device) (n : PortId) (dir : Direction) (k : Nat) (run : Option Nat) :
    d.Keeps (d.beginHandoff n dir k run) :=
  ((Device.setRole_keeps d n .dest (by simp)).trans
    (Device.onPlanner_keeps _ _ (le_refl _) rfl (.inr ⟨.prepare, rfl, rfl⟩))).trans (Device.raise_keeps _ _ _)

theorem Device.evaluateSteady_keeps (d : Device) (k : Nat) (run : Option Nat) : d.Keeps (d.evaluateSteady k run) := by
  unfold Device.evaluateSteady
  split
  · exact Device.Keeps.refl d
  · split
    · split
      · exact Device.changeActive_keeps d _ _ _ _
      · exact Device.Keeps.refl d
    · split
      · split
        · split
          · exact Device.beginHandoff_keeps d _ _ k run
          · exact Device.Keeps.refl d
        · exact Device.Keeps.refl d
      · exact Device.Keeps.refl d

theorem Device.evaluatePrepare_keeps (d : Device) (c : HandoffContext) (k : Nat) (hs : d.planner.state = some .prepare) :
    d.Keeps (d.evaluatePrepare c k) := by
  have hr : d.Keeps (d.onPlanner fun p => { p with context := some { c with elapsed := c.elapsed + 1 } }) :=
    Device.onPlanner_keeps d _ (le_refl _) rfl (.inr ⟨.prepare, hs, rfl⟩)
  unfold Device.evaluatePrepare
  dsimp only
  split
  · exact hr.trans (Device.abandon_keeps _ _ _)
  · split
    · exact hr.trans (Device.abandon_keeps _ _ _)
    · exact hr

theorem Device.evaluateBlend_keeps (d : Device) (c : HandoffContext) (k : Nat) (run : Option Nat)
    (hs : d.planner.state = some .blend) : d.Keeps (d.evaluateBlend c k run) := by
  unfold Device.evaluateBlend
  split
  · exact Device.onPlanner_keeps d _ (le_refl _) rfl (.inr ⟨.blend, hs, rfl⟩)
  · exact (Device.changeActive_keeps d _ _ _ _).trans (Device.evaluateSteady_keeps _ k run)

/-- R65 steps 3 and 4: all that the deferral can do. -/
theorem Device.deferProbe_cases (d : Device) (c : HandoffContext) (k : Nat) (run : Option Nat) (arrived : Bool) :
    (d.deferProbe c k run arrived = d ∧ (d.probe ≠ none ∧ arrived = false ∨ d.planner.hold ≠ 0)) ∨
      ((d.probe = none ∨ arrived = true) ∧ d.planner.hold = 0 ∧ c.deferral + 1 < d.ctl.handoff.deferralLimit ∧
        d.deferProbe c k run arrived = d.onPlanner fun p => { p with context := some { c with deferral := c.deferral + 1 } }) ∨
      ((d.probe = none ∨ arrived = true) ∧ d.planner.hold = 0 ∧ d.ctl.handoff.deferralLimit ≤ c.deferral + 1 ∧
        let skipped := { c with deferral := c.deferral + 1, residual := some Residual.skip, step := 0 }
        d.deferProbe c k run arrived =
          Device.evaluateBlend (d.onPlanner fun p => { p with state := some .blend, context := some skipped }) skipped k run) := by
  unfold Device.deferProbe
  split
  · next h =>
    split
    · next hl => exact .inr (.inl ⟨h.1, h.2, hl, rfl⟩)
    · next hl => exact .inr (.inr ⟨h.1, h.2, by omega, rfl⟩)
  · next h =>
    refine .inl ⟨rfl, ?_⟩
    by_cases hh : d.planner.hold = 0
    · refine .inl ⟨fun hp => h ⟨.inl hp, hh⟩, ?_⟩
      cases arrived
      · rfl
      · exact absurd ⟨.inr rfl, hh⟩ h
    · exact .inr hh

theorem Device.deferProbe_keeps (d : Device) (c : HandoffContext) (k : Nat) (run : Option Nat) (arrived : Bool)
    (hs : d.planner.state = some .probe) : d.Keeps (d.deferProbe c k run arrived) := by
  rcases d.deferProbe_cases c k run arrived with ⟨h, -⟩ | ⟨-, -, -, h⟩ | ⟨-, -, -, h⟩
  · rw [h]; exact Device.Keeps.refl d
  · rw [h]; exact Device.onPlanner_keeps d _ (le_refl _) rfl (.inr ⟨.probe, hs, rfl⟩)
  · rw [h]
    exact (Device.onPlanner_keeps d _ (le_refl _) rfl (.inr ⟨.blend, rfl, rfl⟩)).trans
      (Device.evaluateBlend_keeps _ _ k run rfl)

theorem Device.evaluateProbe_keeps (d : Device) (c : HandoffContext) (k : Nat) (run : Option Nat) (met : Bool)
    (hs : d.planner.state = some .probe) : d.Keeps (d.evaluateProbe c k run met) := by
  unfold Device.evaluateProbe
  split
  · exact Device.abandon_keeps d _ _
  · exact (Device.probeCheck_keeps d _).trans
      (Device.deferProbe_keeps _ c k run _ (by rw [Device.probeCheck_planner]; exact hs))

theorem Device.evaluateNoSource_keeps (d : Device) (k : Nat) : d.Keeps (d.evaluateNoSource k) := by
  unfold Device.evaluateNoSource
  split
  · exact Device.changeActive_keeps d _ _ _ _
  · exact Device.Keeps.refl d

theorem Device.evaluate_keeps (d : Device) (k : Nat) (run : Option Nat) (met : Bool) : d.Keeps (d.evaluate k run met) := by
  unfold Device.evaluate
  split
  · exact Device.evaluateSteady_keeps d k run
  · next hs _ => exact Device.evaluatePrepare_keeps d _ k hs
  · next hs _ => exact Device.evaluateProbe_keeps d _ k run met hs
  · next hs _ => exact Device.evaluateBlend_keeps d _ k run hs
  · exact Device.evaluateNoSource_keeps d k
  · exact Device.Keeps.refl d

theorem Device.writePlan_keeps (d : Device) (k : Nat) (run : Option Nat) : d.Keeps (d.writePlan k run) :=
  Device.onPlanner_keeps d _ (le_refl _) rfl (.inl ⟨rfl, rfl⟩)

/-- R56: the planning keeps everything that Laws/Keeps.lean names. -/
theorem Device.plan_keeps (d : Device) (k : Nat) (met : Bool) : d.Keeps (d.plan k met) := by
  have hcomputed := (((Device.rampStep_keeps d).trans (Device.countDown_keeps _ k)).trans
    (Device.evaluate_keeps _ k d.planner.rampStep.2.1 met)).trans (Device.recomputeApplied_keeps _)
  have hfold : ∀ (l : List PortId) (e : Device), e.Keeps (l.foldl (Device.requestFsync · k) e) := fun l e =>
    Device.Keeps.foldl _ (fun e m => (Device.requestFsync_portKeeps e k m).keeps) l e
  unfold Device.plan
  dsimp only
  split
  · exact ((hcomputed.trans (Device.raise_keeps _ _ _)).trans (Device.writePlan_keeps _ k _)).trans (hfold _ _)
  · exact (hcomputed.trans (Device.writePlan_keeps _ k _)).trans (hfold _ _)

/-! ### The period start -/

@[simp] theorem Device.enterPeriod_mode (d : Device) (k n : Nat) : (d.enterPeriod k n).mode = d.mode := rfl
@[simp] theorem Device.enterPeriod_port (d : Device) (k n : Nat) (m : PortId) : (d.enterPeriod k n).port m = d.port m :=
  rfl
@[simp] theorem Device.enterPeriod_planner (d : Device) (k n : Nat) : (d.enterPeriod k n).planner = d.planner := rfl
@[simp] theorem Device.enterPeriod_cal (d : Device) (k n : Nat) : (d.enterPeriod k n).cal = d.cal := rfl
@[simp] theorem Device.enterPeriod_hostA (d : Device) (k n : Nat) : (d.enterPeriod k n).hostA = d.hostA := rfl
@[simp] theorem Device.enterPeriod_hostM (d : Device) (k n : Nat) : (d.enterPeriod k n).hostM = d.hostM := rfl
@[simp] theorem Device.enterPeriod_motion (d : Device) (k n : Nat) : (d.enterPeriod k n).motion = d.motion := rfl
@[simp] theorem Device.enterPeriod_slots (d : Device) (k n : Nat) : (d.enterPeriod k n).slots = d.slots := rfl
@[simp] theorem Device.enterPeriod_buffers (d : Device) (k n : Nat) : (d.enterPeriod k n).buffers = d.buffers := rfl
@[simp] theorem Device.enterPeriod_link (d : Device) (k n : Nat) : (d.enterPeriod k n).link = d.link := rfl
@[simp] theorem Device.enterPeriod_composing (d : Device) (k n : Nat) : (d.enterPeriod k n).composing = d.composing :=
  rfl
@[simp] theorem Device.enterPeriod_events (d : Device) (k n : Nat) : (d.enterPeriod k n).events = d.events := rfl
@[simp] theorem Device.enterPeriod_probe (d : Device) (k n : Nat) : (d.enterPeriod k n).probe = d.probe := rfl

theorem Device.enterPeriod_sessionCoherent (d : Device) (k n : Nat) (h : d.sessionCoherent) :
    (d.enterPeriod k n).sessionCoherent := by
  obtain ⟨h1, h2, h3, h4⟩ := h
  refine ⟨?_, h2, h3, h4⟩
  simpa [Device.enterPeriod, Device.mode] using h1

/-- R56, R122: the period start, after the current period has become k, keeps what the planning keeps. -/
theorem Device.startPeriod_keeps (d : Device) (met : Bool) :
    (d.enterPeriod d.nextPeriod (d.nextPeriod + 1)).Keeps (d.startPeriod met) :=
  (Device.plan_keeps _ _ met).trans (Device.Keeps.foldl _ (fun e m => (Device.advanceStall_portKeeps e m).keeps) _ _)

/-- R165: the period start leaves the Mode Controller but for the period indexes of the session. -/
theorem Device.startPeriod_ctl (d : Device) (met : Bool) :
    (d.startPeriod met).ctl = (d.enterPeriod d.nextPeriod (d.nextPeriod + 1)).ctl := (Device.startPeriod_keeps d met).ctl

/-! ### The probe's completion -/

theorem Device.takeProbe_keeps (d : Device) (q : ProbeMeasure) : d.Keeps (d.takeProbe q) := by
  unfold Device.takeProbe
  split
  · exact Device.Keeps.refl d
  · exact Device.onPlanner_keeps d _ (le_refl _) rfl (.inr ⟨.blend, rfl, rfl⟩)

theorem Device.takeProbe_portKeeps (d : Device) (c : ProbeContext) (q : ProbeMeasure) :
    d.PortKeeps (if d.takesProbe c then d.takeProbe q else d) := by
  refine ⟨?_, fun h => ?_⟩
  · split
    · exact Device.takeProbe_keeps d q
    · exact Device.Keeps.refl d
  · have : d.takesProbe c = false := by
      unfold Device.takesProbe
      split
      · simp [h]
      · rfl
    rw [this]
    rfl

theorem Device.releaseSlot_portKeeps (d : Device) (id : Nat) : d.PortKeeps (d.releaseSlot id) := by
  refine ⟨Device.releaseSlot_keeps d id, fun _ => ?_⟩
  unfold Device.releaseSlot
  split
  · rfl
  · split_ifs
    · rfl
    · rfl
    · rfl
    · split
      · rfl
      · unfold Device.supersede
        split <;> rfl

/-- R89: the completion of a probe. -/
theorem Device.completeProbe_portKeeps (d : Device) (c : ProbeContext) (q : ProbeMeasure) :
    d.PortKeeps (d.completeProbe c q) := by
  have h := ((Device.releaseSlot_portKeeps d c.activeSlot).trans (Device.releaseSlot_portKeeps _ c.destSlot)).trans
    (Device.takeProbe_portKeeps _ c q)
  obtain ⟨hk, ho⟩ := h
  refine ⟨⟨hk.ctl, hk.hostA, hk.hostM, hk.cal, hk.motion, hk.composePoint, hk.composing, hk.buffers, hk.link, hk.config,
    hk.events, hk.queues, hk.slots, fun hf => ?_, hk.session⟩, ho⟩
  obtain ⟨h1, h2, h3, h4, h5, h6, h7⟩ := hk.fits hf
  exact ⟨h1, h2, h3, h4, h5, fun x hx => absurd hx (by simp [Device.completeProbe]), h7⟩

end Sys2Proof.Machine
end

