-- ==== Sys2Proof/Laws/KeepsOutput.lean ====
section
/-! SUPPORT. Sys2Proof/Laws/KeepsOutput.lean: what the operations of the Compositor, the Output Link and the Mode Controller
leave alone, and the conditions they keep. -/

namespace Sys2Proof.Machine

open Sys2Proof

/-- The operation that makes `e` of `d` is one of the output side: it leaves the Mode Controller, the reply slots, the
calibration records, the motion ring and the ports alone, and of the View Planner all but the plan queue. -/
structure Device.OutputKeeps (d e : Device) : Prop where
  ctl     : e.ctl = d.ctl
  hostA   : e.hostA = d.hostA
  hostM   : e.hostM = d.hostM
  cal     : e.cal = d.cal
  motion  : e.motion = d.motion
  ports   : e.ports = d.ports
  probe   : e.probe = d.probe
  planner : e.planner = { d.planner with plans := e.planner.plans }
  events  : d.events.coherent → e.events.coherent
  slots   : d.slotsCoherent → e.slotsCoherent
  fits    : d.fitsMemory → e.fitsMemory

theorem Device.OutputKeeps.refl (d : Device) : d.OutputKeeps d :=
  ⟨rfl, rfl, rfl, rfl, rfl, rfl, rfl, rfl, id, id, id⟩

theorem Device.OutputKeeps.trans {d e f : Device} (h : d.OutputKeeps e) (g : e.OutputKeeps f) : d.OutputKeeps f where
  ctl := g.ctl.trans h.ctl
  hostA := g.hostA.trans h.hostA
  hostM := g.hostM.trans h.hostM
  cal := g.cal.trans h.cal
  motion := g.motion.trans h.motion
  ports := g.ports.trans h.ports
  probe := g.probe.trans h.probe
  planner := by rw [g.planner, h.planner]
  events := g.events ∘ h.events
  slots := g.slots ∘ h.slots
  fits := g.fits ∘ h.fits

/-- The session's conditions, and the bounds of the queues, are kept. -/
theorem Device.OutputKeeps.session {d e : Device} (h : d.OutputKeeps e) (hd : d.sessionCoherent) : e.sessionCoherent := by
  have hp := h.planner
  have hc := h.ctl
  obtain ⟨h1, h2, h3, h4⟩ := hd
  refine ⟨?_, ?_, fun m => ?_, ?_⟩
  · simpa [Device.mode, hc] using h1
  · rw [hp]; simpa [Device.mode, hc] using h2
  · have := h3 m
    rw [Device.role, hp]
    simpa [Device.mode, hc, Device.role] using this
  · rw [hp]; simpa using h4

theorem Device.OutputKeeps.queues {d e : Device} (h : d.OutputKeeps e) (hd : d.queuesBounded) : e.queuesBounded := by
  obtain ⟨h1, h2, h3⟩ := hd
  refine ⟨by rw [h.planner]; exact h1, by rw [h.motion]; exact h2, fun m => ?_⟩
  have := h3 m
  simpa [Device.port, h.ports] using this

/-! ### Primitive updates -/

theorem Device.onLink_keeps (d : Device) (f : OutputLink → OutputLink) : d.OutputKeeps (d.onLink f) :=
  ⟨rfl, rfl, rfl, rfl, rfl, rfl, rfl, rfl, id, id, id⟩

theorem Device.raise_outputKeeps (d : Device) (k : EventKind) (x : EventDetail) : d.OutputKeeps (d.raise k x) :=
  ⟨rfl, rfl, rfl, rfl, rfl, rfl, rfl, rfl, EventUnit.raise_coherent _ _ _ _, id, id⟩

/-- Buffers changed one by one, their numbers kept. -/
theorem Device.mapBuffers_keeps (d : Device) (f : OutputBuffer → OutputBuffer) (hid : ∀ b, (f b).id = b.id) :
    d.OutputKeeps { d with buffers := d.buffers.map f } := by
  refine ⟨rfl, rfl, rfl, rfl, rfl, rfl, rfl, rfl, id, id, ?_⟩
  intro ⟨h1, h2, h3, h4, h5⟩
  refine ⟨h1, h2, h3, fun b hb => ?_, h5⟩
  simp only [List.mem_map] at hb
  obtain ⟨x, hx, rfl⟩ := hb
  rw [hid]
  exact h4 x hx

theorem Device.onBuffer_keeps (d : Device) (id : Nat) (f : OutputBuffer → OutputBuffer) (hid : ∀ b, (f b).id = b.id) :
    d.OutputKeeps (d.onBuffer id f) :=
  Device.mapBuffers_keeps d _ fun b => by split; exact hid b; rfl

/-- A slot operation, seen from the output side. -/
theorem Device.Keeps.output {d e : Device} (h : d.Keeps e) (hports : e.ports = d.ports) (hprobe : e.probe = d.probe)
    (hplanner : e.planner = d.planner) : d.OutputKeeps e :=
  ⟨h.ctl, h.hostA, h.hostM, h.cal, h.motion, hports, hprobe, by rw [hplanner], h.events, h.slots, h.fits⟩

theorem Device.supersede_rest (d : Device) (m : PortId) :
    (d.supersede m).ports = d.ports ∧ (d.supersede m).probe = d.probe ∧ (d.supersede m).planner = d.planner ∧
      (d.supersede m).link = d.link ∧ (d.supersede m).composing = d.composing ∧ (d.supersede m).buffers = d.buffers := by
  unfold Device.supersede
  split <;> exact ⟨rfl, rfl, rfl, rfl, rfl, rfl⟩

theorem Device.supersede_outputKeeps (d : Device) (m : PortId) : d.OutputKeeps (d.supersede m) :=
  (Device.supersede_keeps d m).output (Device.supersede_rest d m).1 (Device.supersede_rest d m).2.1
    (Device.supersede_rest d m).2.2.1

theorem Device.OutputKeeps.foldl {α : Type} (op : Device → α → Device)
    (h : ∀ (d : Device) (a : α), d.OutputKeeps (op d a)) (l : List α) (d : Device) : d.OutputKeeps (l.foldl op d) := by
  induction l generalizing d with
  | nil => exact Device.OutputKeeps.refl d
  | cons a rest ih => exact (h d a).trans (ih _)

theorem Device.releaseSlot_rest (d : Device) (id : Nat) :
    (d.releaseSlot id).ports = d.ports ∧ (d.releaseSlot id).probe = d.probe ∧ (d.releaseSlot id).planner = d.planner ∧
      (d.releaseSlot id).link = d.link ∧ (d.releaseSlot id).composing = d.composing ∧
      (d.releaseSlot id).buffers = d.buffers := by
  unfold Device.releaseSlot
  split
  · exact ⟨rfl, rfl, rfl, rfl, rfl, rfl⟩
  · split_ifs
    · exact ⟨rfl, rfl, rfl, rfl, rfl, rfl⟩
    · exact ⟨rfl, rfl, rfl, rfl, rfl, rfl⟩
    · exact ⟨rfl, rfl, rfl, rfl, rfl, rfl⟩
    · split
      · exact ⟨rfl, rfl, rfl, rfl, rfl, rfl⟩
      · exact Device.supersede_rest _ _

theorem Device.releaseSlot_outputKeeps (d : Device) (id : Nat) : d.OutputKeeps (d.releaseSlot id) :=
  (Device.releaseSlot_keeps d id).output (Device.releaseSlot_rest d id).1 (Device.releaseSlot_rest d id).2.1
    (Device.releaseSlot_rest d id).2.2.1

theorem Device.releaseOption_outputKeeps (d : Device) (o : Option Nat) : d.OutputKeeps (d.releaseOption o) := by
  cases o with
  | none => exact Device.OutputKeeps.refl d
  | some id => exact Device.releaseSlot_outputKeeps d id

theorem Device.holdChosen_outputKeeps (d : Device) (o : Option (Slot × Bool)) : d.OutputKeeps (d.holdChosen o) := by
  cases o with
  | none => exact Device.OutputKeeps.refl d
  | some x => exact (Device.holdSlot_keeps d x.1.id).output rfl rfl rfl

/-! ### Compositions -/

theorem Device.pair_mem {d : Device} {m : PortId} {k : Nat} {x : Slot × Bool} (h : d.pair m k = some x) :
    x.1 ∈ d.slots := by
  unfold Device.pair at h
  split at h
  · next s hs => cases h; exact Device.slotOf_mem hs
  · split at h
    · exact absurd h (by simp)
    · simp only [Option.map_eq_some_iff] at h
      obtain ⟨s, hs, rfl⟩ := h
      exact Device.slotOf_mem hs

/-- R144: the slots that a selection names are among the twelve. -/
theorem Device.select_mem {d : Device} {plan : ViewPlan} {s : Selection} (h : d.select plan = some s) :
    (∀ x, s.active = some x → x.1 ∈ d.slots) ∧ ∀ y, s.dest = some y → y.1 ∈ d.slots := by
  unfold Device.select at h
  split at h
  · exact absurd h (by simp)
  · split at h
    · simp only [Option.map_eq_some_iff] at h
      obtain ⟨x, hx, rfl⟩ := h
      exact ⟨fun x' hx' => by cases hx'; exact Device.pair_mem hx, fun y hy => by simp at hy⟩
    · split at h
      · next hx hy =>
        cases h
        exact ⟨fun x' hx' => by cases hx'; exact Device.pair_mem hx, fun y' hy' => by cases hy'; exact Device.pair_mem hy⟩
      · next hx _ =>
        cases h
        exact ⟨fun x' hx' => by cases hx'; exact Device.pair_mem hx, fun y' hy' => by simp at hy'⟩
      · next _ hy =>
        cases h
        exact ⟨fun x' hx' => by simp at hx', fun y' hy' => by cases hy'; exact Device.pair_mem hy⟩
      · exact absurd h (by simp)

theorem Device.startComposition_keeps (d : Device) (plan : ViewPlan) (s : Selection) (b : OutputBuffer)
    (hs : d.select plan = some s) (hb : b ∈ d.buffers) : d.OutputKeeps (d.startComposition plan s b) := by
  have h := ((Device.holdChosen_outputKeeps d s.active).trans (Device.holdChosen_outputKeeps _ s.dest)).trans
    (Device.onBuffer_keeps _ b.id (fun x =>
      { x with state := .composing, period := some plan.period, trailer := some (d.assembleTrailer plan s) })
      fun _ => rfl)
  refine ⟨h.ctl, h.hostA, h.hostM, h.cal, h.motion, h.ports, h.probe, h.planner, h.events, h.slots, fun hf => ?_⟩
  obtain ⟨h1, h2, h3, h4, h5, h6, -⟩ := h.fits hf
  refine ⟨h1, h2, h3, h4, h5, h6, fun c hc => ?_⟩
  cases hc
  refine ⟨hf.2.2.2.1 b hb, fun x hx => ?_, fun y hy => ?_⟩
  · simp only [Option.map_eq_some_iff] at hx
    obtain ⟨x', hx', rfl⟩ := hx
    exact hf.2.2.1 _ ((Device.select_mem hs).1 x' hx')
  · simp only [Option.map_eq_some_iff] at hy
    obtain ⟨y', hy', rfl⟩ := hy
    exact hf.2.2.1 _ ((Device.select_mem hs).2 y' hy')

theorem Device.composeFrame_keeps (d : Device) (plan : ViewPlan) : d.OutputKeeps (d.composeFrame plan) := by
  unfold Device.composeFrame
  split
  · exact Device.onLink_keeps d _
  · split
    · exact Device.onLink_keeps d _
    · next s hs =>
      split
      · exact Device.onLink_keeps d _
      · next b hb => exact Device.startComposition_keeps d plan s b hs (List.mem_of_find?_eq_some hb)

/-- R132: the compose point advances, and superseded slots are freed. -/
theorem Device.advanceComposePoint_keeps (d : Device) (k : Nat) : d.OutputKeeps (d.advanceComposePoint k) :=
  (⟨rfl, rfl, rfl, rfl, rfl, rfl, rfl, rfl, id, id, id⟩ : d.OutputKeeps { d with composePoint := k + 1 }).trans
    (Device.OutputKeeps.foldl _ Device.supersede_outputKeeps _ _)

/-- R143: the compose deadline. -/
theorem Device.takePlan_keeps (d : Device) (plan : ViewPlan) (rest : List ViewPlan) : d.OutputKeeps (d.takePlan plan rest) :=
  ((⟨rfl, rfl, rfl, rfl, rfl, rfl, rfl, rfl, id, id, id⟩ :
    d.OutputKeeps (d.onPlanner fun p => { p with plans := rest })).trans (Device.composeFrame_keeps _ plan)).trans
    (Device.advanceComposePoint_keeps _ plan.period)

/-- R147: the completion of a composition. -/
theorem Device.finishComposition_keeps (d : Device) (c : Composition) : d.OutputKeeps (d.finishComposition c) := by
  have hr := (Device.releaseOption_outputKeeps d c.activeSlot).trans (Device.releaseOption_outputKeeps _ c.destSlot)
  have hidle : ∀ e : Device, d.OutputKeeps e → d.OutputKeeps { e with composing := none } := fun e h =>
    ⟨h.ctl, h.hostA, h.hostM, h.cal, h.motion, h.ports, h.probe, h.planner, h.events, h.slots, fun hf => by
      obtain ⟨h1, h2, h3, h4, h5, h6, -⟩ := h.fits hf
      exact ⟨h1, h2, h3, h4, h5, h6, fun x hx => by simp at hx⟩⟩
  unfold Device.finishComposition
  dsimp only
  split
  · exact hidle _ (hr.trans (Device.onBuffer_keeps _ _ _ fun _ => rfl))
  · exact hidle _ (hr.trans (Device.onBuffer_keeps _ _ _ fun _ => rfl))

/-! ### Emissions -/

theorem Device.send_keeps (d : Device) (k : Nat) (kind : EmissionKind) (buffer : Option Nat) (t : Option Trailer) :
    d.OutputKeeps (d.send k kind buffer t) := by
  unfold Device.send
  cases buffer with
  | none => exact Device.onLink_keeps d _
  | some b =>
    exact (Device.onBuffer_keeps d b (fun x => { x with state := .sending }) fun _ => rfl).trans
      (Device.onLink_keeps _ _)

theorem Device.countNonFresh_keeps (d : Device) (k : Nat) (cause : RepeatCause) : d.OutputKeeps (d.countNonFresh k cause) := by
  unfold Device.countNonFresh
  dsimp only
  split
  · exact (((Device.raise_outputKeeps d _ _).trans (Device.onLink_keeps _ _)).trans (Device.raise_outputKeeps _ _ _)).trans
      (Device.onLink_keeps _ _)
  · exact (Device.raise_outputKeeps d _ _).trans (Device.onLink_keeps _ _)

/-- R149: the start of an emission. -/
theorem Device.emit_keeps (d : Device) (r : PendingRecord) : d.OutputKeeps (d.emit r) := by
  unfold Device.emit
  split
  · exact (Device.send_keeps d _ _ _ _).trans (Device.onLink_keeps _ _)
  · split
    · exact (Device.send_keeps d _ _ _ _).trans (Device.countNonFresh_keeps _ _ _)
    · exact (Device.send_keeps d _ _ _ _).trans (Device.countNonFresh_keeps _ _ _)

theorem Device.completeFence_keeps (d : Device) (k status : Nat) : d.OutputKeeps (d.completeFence k status) :=
  (Device.raise_outputKeeps d _ _).trans (Device.onLink_keeps _ _)

/-- R150: the end of an emission. -/
theorem Device.endEmission_keeps (d : Device) (r : SendingRecord) : d.OutputKeeps (d.endEmission r) := by
  have hs : d.OutputKeeps (d.settleBuffers r) := by
    unfold Device.settleBuffers
    split
    · exact Device.mapBuffers_keeps d _ fun b => by split_ifs <;> rfl
    · exact Device.onBuffer_keeps d _ _ fun _ => rfl
    · exact Device.OutputKeeps.refl d
  unfold Device.endEmission
  dsimp only
  split
  · exact (hs.trans (Device.completeFence_keeps _ _ _)).trans (Device.onLink_keeps _ _)
  · exact hs.trans (Device.onLink_keeps _ _)

theorem Device.cutFence_keeps (d : Device) : d.OutputKeeps d.cutFence := by
  unfold Device.cutFence
  split
  · exact Device.OutputKeeps.refl d
  · exact Device.completeFence_keeps d _ _

end Sys2Proof.Machine
end

