-- ==== Sys2Proof/Laws/KeepsModes.lean ====
section
/-! SUPPORT. Sys2Proof/Laws/KeepsModes.lean: the operations of the Mode Controller, and the taking of a message, keep the
conditions of Safety.lean. -/

namespace Sys2Proof.Machine

open Sys2Proof

/-- The conditions of Safety.lean that speak of the device alone. -/
structure Device.Coherent (d : Device) : Prop where
  events  : d.events.coherent
  queues  : d.queuesBounded
  session : d.sessionCoherent
  slots   : d.slotsCoherent
  fits    : d.fitsMemory

theorem Device.PortKeeps.coherent {d e : Device} (h : d.PortKeeps e) (hd : d.Coherent) : e.Coherent :=
  ⟨h.keeps.events hd.events, h.keeps.queues hd.queues, h.session hd.session, h.keeps.slots hd.slots,
    h.keeps.fits hd.fits⟩

theorem Device.Keeps.coherent {d e : Device} (h : d.Keeps e) (hm : d.mode.inSession = true) (hd : d.Coherent) :
    e.Coherent :=
  ⟨h.events hd.events, h.queues hd.queues, h.session hm hd.session, h.slots hd.slots, h.fits hd.fits⟩

theorem Device.OutputKeeps.coherent {d e : Device} (h : d.OutputKeeps e) (hd : d.Coherent) : e.Coherent :=
  ⟨h.events hd.events, h.queues hd.queues, h.session hd.session, h.slots hd.slots, h.fits hd.fits⟩

/-! ### Power-on values -/

theorem EventUnit.initial_coherent : EventUnit.initial.coherent := by
  have hset : EventSet.initial.coherent := by
    refine ⟨by decide, ?_⟩
    intro r hr
    simp only [EventSet.initial, List.mem_map] at hr
    obtain ⟨k, -, rfl⟩ := hr
    exact ⟨fun _ => ⟨rfl, rfl⟩, by simp [EventRecord.initial]⟩
  exact ⟨hset, hset, by decide⟩

theorem Device.freeSlots_coherent : Device.freeSlots.map Slot.id = List.range 12 ∧ ∀ s ∈ Device.freeSlots, s.coherent := by
  refine ⟨by decide, ?_⟩
  intro s hs
  simp only [Device.freeSlots, List.mem_map] at hs
  obtain ⟨id, -, rfl⟩ := hs
  exact Slot.freed_coherent id

theorem Device.freeSlots_ids : ∀ s ∈ Device.freeSlots, s.id < 12 := by decide

theorem Device.freeBuffers_ids : ∀ b ∈ Device.freeBuffers, b.id < 3 := by decide

theorem ModulePort.initial_port (m : PortId) : (PerPort.all ModulePort.initial).get m = ModulePort.initial := by
  cases m <;> rfl

/-- The power-on values meet the conditions, whatever the Mode Controller holds outside a session without an output
size. -/
theorem Device.initial_coherent (c : ModeController) (a m : HostPort) (cal : PerPort Calibration)
    (hs : c.session = none) (hm : c.mode.inSession = false) (ho : c.output.size = none) :
    Device.Coherent { Device.initial with ctl := c, hostA := a, hostM := m, cal := cal } := by
  have hport : ∀ n, Device.port { Device.initial with ctl := c, hostA := a, hostM := m, cal := cal } n = ModulePort.initial :=
    fun n => ModulePort.initial_port n
  refine ⟨EventUnit.initial_coherent, ⟨Nat.zero_le _, Nat.zero_le _, fun n => ?_⟩, ⟨?_, ?_, fun n => ?_, rfl⟩,
    Device.freeSlots_coherent, ⟨fun n x hx => ?_, fun x hx => ?_, Device.freeSlots_ids, Device.freeBuffers_ids,
      fun n x hx => ?_, fun x hx => ?_, fun x hx => ?_⟩⟩
  · rw [hport]; decide
  · simp [Device.mode, hs, hm]
  · simp [Device.mode, hm, Device.initial, Planner.initial]
  · simp [Device.mode, hm, Device.role, Device.initial, Planner.initial]
  · rw [hport] at hx; simp [ModulePort.initial] at hx
  · simp [ho] at hx
  · rw [hport] at hx; simp [ModulePort.initial] at hx
  · simp [Device.initial] at hx
  · simp [Device.initial] at hx

theorem Device.poweredOn_coherent (cause : ResetCause) (low addr : Bool) : (Device.poweredOn cause low addr).Coherent :=
  Device.initial_coherent _ _ _ Device.initial.cal rfl rfl rfl

/-- Raising an event keeps the conditions. -/
theorem Device.Coherent.raise {d : Device} (h : d.Coherent) (k : EventKind) (x : EventDetail) : (d.raise k x).Coherent :=
  (Device.raise_portKeeps d k x).coherent h

/-- R159: an entry to a mode on the same side of the session keeps the conditions. -/
theorem Device.Coherent.enterMode {d : Device} (h : d.Coherent) (m : Mode) (hm : m.inSession = d.mode.inSession) :
    (d.enterMode m).Coherent := by
  refine Device.Coherent.raise (d := d.onCtl fun c => { c with mode := m }) ?_ _ _
  obtain ⟨h1, h2, ⟨s1, s2, s3, s4⟩, h4, h5⟩ := h
  refine ⟨h1, h2, ⟨?_, ?_, fun n => ?_, s4⟩, h4, h5⟩
  · show d.ctl.session.isSome = m.inSession
    rw [hm]; exact s1
  · show d.planner.state.isSome = m.inSession
    rw [hm]; exact s2
  · show d.role n = .none ↔ m.inSession = false
    rw [hm]; exact s3 n

theorem Device.softReset_coherent (d : Device) (p : CmdPort) : (d.softReset p).Coherent :=
  Device.Coherent.enterMode (Device.initial_coherent _ _ _ d.cal rfl rfl rfl) .resetting rfl

/-- An update of the Mode Controller that leaves the mode, the session and the output size alone. -/
theorem Device.Coherent.onCtl {d : Device} (h : d.Coherent) (f : ModeController → ModeController)
    (hm : (f d.ctl).mode = d.ctl.mode) (hs : (f d.ctl).session.isSome = d.ctl.session.isSome)
    (ho : (f d.ctl).output.size = d.ctl.output.size) : (d.onCtl f).Coherent := by
  obtain ⟨h1, h2, ⟨s1, s2, s3, s4⟩, h4, h5⟩ := h
  refine ⟨h1, h2, ⟨?_, ?_, fun n => ?_, s4⟩, h4, ⟨h5.1, ?_, h5.2.2⟩⟩
  · show (f d.ctl).session.isSome = (f d.ctl).mode.inSession
    rw [hs, hm]; exact s1
  · show d.planner.state.isSome = (f d.ctl).mode.inSession
    rw [hm]; exact s2
  · show d.role n = .none ↔ (f d.ctl).mode.inSession = false
    rw [hm]; exact s3 n
  · show ∀ size, (f d.ctl).output.size = some size → _
    rw [ho]; exact h5.2.1

/-! ### Messages -/

/-- A reply changes its port's slot and nothing that the conditions speak of. -/
theorem Device.Coherent.setReply {d : Device} (h : d.Coherent) (p : CmdPort) (r : Reply) : (d.setReply p r).Coherent := by
  obtain ⟨h1, h2, h3, h4, h5⟩ := h
  cases p <;> exact ⟨h1, h2, h3, h4, h5⟩

theorem Device.Coherent.setCause {d : Device} (h : d.Coherent) (p : CmdPort) (c : ResetCause) :
    (d.setCause p c).Coherent := by
  obtain ⟨h1, h2, h3, h4, h5⟩ := h
  cases p <;> exact ⟨h1, h2, h3, h4, h5⟩

/-- R173: what a well-formed message does: nothing while RESET_N is low, the entry of Table 11-3 as a bare reply, or what
its owner makes of it. -/
theorem Device.takeCommand_cases (d : Device) (p : CmdPort) (c : Command) (owner : Device → Answer) :
    (d.ctl.resetLow = true ∧ d.takeCommand p c owner = d) ∨
      (d.ctl.resetLow = false ∧ ∃ st, availability d.mode c = some st ∧
        d.takeCommand p c owner = d.setReply p (Reply.bare st)) ∨
      (d.ctl.resetLow = false ∧ availability d.mode c = none ∧
        d.takeCommand p c owner = (owner d).2.setReply p (owner d).1) := by
  unfold Device.takeCommand
  cases hl : d.ctl.resetLow
  · cases ha : availability d.mode c with
    | none => simp
    | some st => simp
  · simp

/-- The conditions are kept by a message when its owner keeps them in the modes that take it. -/
theorem Device.Coherent.takeCommand {d : Device} (h : d.Coherent) (p : CmdPort) (c : Command) (owner : Device → Answer)
    (ho : availability d.mode c = none → (owner d).2.Coherent) : (d.takeCommand p c owner).Coherent := by
  rcases Device.takeCommand_cases d p c owner with ⟨-, he⟩ | ⟨-, st, -, he⟩ | ⟨-, ha, he⟩
  · rw [he]; exact h
  · rw [he]; exact h.setReply p _
  · rw [he]; exact (ho ha).setReply p _

end Sys2Proof.Machine
end

