-- ==== Sys2Proof/Laws/KeepsCommands.lean ====
section
/-! SUPPORT. Sys2Proof/Laws/KeepsCommands.lean: what the meanings do to the device as a whole keeps the conditions of
Safety.lean: period starts, the start and the stop of a stream, configurations, and the event records. -/

namespace Sys2Proof.Machine

open Sys2Proof

/-- R165: entering a period keeps the conditions. -/
theorem Device.Coherent.enterPeriod {d : Device} (h : d.Coherent) (k n : Nat) : (d.enterPeriod k n).Coherent :=
  ⟨h.1, h.2, Device.enterPeriod_sessionCoherent d k n h.3, h.4, h.5⟩

/-- R56: a period start in a session keeps the conditions. -/
theorem Device.Coherent.startPeriod {d : Device} (h : d.Coherent) (hm : d.mode.inSession = true) (met : Bool) :
    (d.startPeriod met).Coherent :=
  (Device.startPeriod_keeps d met).coherent hm (Device.Coherent.enterPeriod h _ _)

/-- R107: every port taken OFF. -/
theorem Device.takeAllDown_portKeeps (l : List PortId) (d : Device) : d.PortKeeps (l.foldl (fun e m => e.takeDown m .off) d) :=
  Device.PortKeeps.foldl _ (fun d a => Device.takeDown_portKeeps d a .off) l d

/-- Table 0-2: a frame of a configured size in a slot's region lies in frame memory. -/
theorem Device.fitsMemory.frameInMemory {d : Device} (h : d.fitsMemory) (m : PortId) {slot : Nat} (hs : slot < 12) : d.frameInMemory slot m = true := by
  have hsz : (d.frameSize m).1 ≤ 4096 ∧ (d.frameSize m).2 ≤ 3072 := by
    unfold Device.frameSize
    split
    · next c hc => exact h.1 m c hc
    · simp
  unfold Device.frameInMemory
  rw [decide_eq_true_eq]
  unfold slotBase slotRegionBytes pictureBytes frameMemoryBytes
  obtain ⟨h1, h2⟩ := hsz
  have := Nat.mul_le_mul h1 h2
  have := Nat.mul_le_mul (Nat.div_le_div_right (c := 2) h1) (Nat.div_le_div_right (c := 2) h2)
  norm_num at *
  omega

/-- R169: the end of STOPPING keeps the conditions. -/
theorem Device.Coherent.enterStandbyFromStopping {d : Device} (h : d.Coherent) : d.enterStandbyFromStopping.Coherent := by
  unfold Device.enterStandbyFromStopping
  dsimp only
  apply Device.Coherent.raise (d := Device.onCtl _ _)
  obtain ⟨h1, h2, h3, h4, h5⟩ := h
  refine ⟨h1, h2, ⟨rfl, rfl, fun n => ?_, rfl⟩, Device.freeSlots_coherent,
    ⟨h5.1, h5.2.1, Device.freeSlots_ids, Device.freeBuffers_ids, h5.2.2.2.2.1, ?_, h5.2.2.2.2.2.2⟩⟩
  · cases n <;> exact ⟨fun _ => rfl, fun _ => rfl⟩
  · intro c hc; cases hc

/-- R169: the drain check keeps the conditions. -/
theorem Device.Coherent.drainCheck {d : Device} (h : d.Coherent) : d.drainCheck.Coherent := by
  unfold Device.drainCheck
  split
  · exact Device.Coherent.enterStandbyFromStopping h
  · exact h

/-- An update of the View Planner that leaves roles, state and context alone and at most 8 queue entries. -/
theorem Device.Coherent.onPlanner {d : Device} (h : d.Coherent) (f : Planner → Planner)
    (hq : (f d.planner).queue.length ≤ 8) (hr : (f d.planner).roles = d.planner.roles)
    (hs : (f d.planner).state = d.planner.state) (hc : (f d.planner).context = d.planner.context) :
    (d.onPlanner f).Coherent := by
  obtain ⟨h1, h2, h3, h4, h5⟩ := h
  refine ⟨h1, ⟨hq, h2.2⟩, ⟨h3.1, ?_, fun n => ?_, ?_⟩, h4, h5⟩
  · show (f d.planner).state.isSome = _
    rw [hs]; exact h3.2.1
  · show (f d.planner).roles.get n = .none ↔ _
    rw [hr]; exact h3.2.2.1 n
  · show (f d.planner).context.isSome = ((f d.planner).state.map _).getD false
    rw [hc, hs]; exact h3.2.2.2

/-- R169: STREAM_STOP keeps the conditions. -/
theorem Device.Coherent.stopStream {d : Device} (h : d.Coherent) (hm : d.mode = .streaming) : d.stopStream.Coherent := by
  unfold Device.stopStream
  dsimp only
  have h1 : (d.enterMode .stopping).Coherent := h.enterMode .stopping (by rw [hm]; rfl)
  have h2 : ((d.enterMode .stopping).abandon .stopped d.period).Coherent :=
    (Device.abandon_keeps _ _ _).coherent rfl h1
  generalize (d.enterMode .stopping).abandon .stopped d.period = e at h2
  apply Device.Coherent.drainCheck
  apply Device.OutputKeeps.coherent (Device.cutFence_keeps _)
  apply Device.OutputKeeps.coherent (Device.onLink_keeps _ _)
  unfold Device.freeAllUnheld
  have hK := Device.freeWhere_keeps ({ e.onPlanner Planner.stop with motion := [], ports := e.ports.map ModulePort.stop }) Slot.unheld
  refine Device.PortKeeps.coherent ⟨hK, fun _ => rfl⟩ ?_
  clear hK
  · have h3 := Device.Coherent.onPlanner h2 Planner.stop (Nat.zero_le _) rfl rfl rfl
    obtain ⟨g1, g2, g3, g4, g5⟩ := h3
    have hp : ∀ n, (e.ports.map ModulePort.stop).get n = (e.ports.get n).stop := fun n => by cases n <;> rfl
    refine ⟨g1, ⟨g2.1, Nat.zero_le _, fun n => ?_⟩, g3, g4, ⟨fun n c hc => ?_, g5.2.1, g5.2.2.1, g5.2.2.2.1, fun n x hx => ?_, g5.2.2.2.2.2⟩⟩
    · show ((e.ports.map ModulePort.stop).get n).expectations.length ≤ 4
      rw [hp]; exact Nat.zero_le _
    · have : ((e.ports.map ModulePort.stop).get n).config = some c := hc
      rw [hp] at this; exact g5.1 n c this
    · have : ((e.ports.map ModulePort.stop).get n).filling = some x := hx
      rw [hp] at this; cases this

/-- R79, R168: the session-start values and the first period start. -/
theorem Device.beginSession_coherent {e : Device} (a : PortId) (h1 : e.events.coherent) (h2 : e.queuesBounded) (h4 : e.slotsCoherent)
    (h5 : e.fitsMemory) (hm : e.mode = .streaming) : ((((e.startPlanner a).startOutput).beginSession).startPeriod false).Coherent := by
  have hsr : ∀ n, e.startRole a n ≠ .none := by
    intro n; unfold Device.startRole
    split_ifs <;> simp [Device.standbyRole_ne_none]
  have hs : (((e.startPlanner a).startOutput).beginSession).mode.inSession = true := by
    show e.mode.inSession = true
    rw [hm]; rfl
  refine Device.Coherent.startPeriod ?_ hs false
  refine ⟨h1, ⟨h2.1, h2.2⟩, ⟨?_, ?_, fun n => ?_, ?_⟩, h4, h5⟩
  · rw [hs]; rfl
  · rw [hs]; rfl
  · rw [hs]
    refine ⟨fun hn => ?_, fun hn => by cases hn⟩
    exfalso
    cases n
    · exact hsr .p0 hn
    · exact hsr .p1 hn
    · exact hsr .p2 hn
    · exact hsr .p3 hn
  · rfl

/-- R168: an accepted STREAM_START keeps the conditions. -/
theorem Device.Coherent.startStream {d : Device} (h : d.Coherent) (a : PortId) : (d.startStream a).Coherent := by
  have hr := (Device.raise_keeps (d.onCtl fun c => { c with mode := .streaming }) .modeChanged
        (EventDetail.ofPeriod (d.onCtl fun c => { c with mode := .streaming }).currentPeriod (some Mode.streaming.number)))
  have h1 : (d.enterMode .streaming).events.coherent := hr.events h.1
  have h2 : (d.enterMode .streaming).queuesBounded := hr.queues h.2
  have h4 : (d.enterMode .streaming).slotsCoherent := hr.slots h.4
  have h5 : (d.enterMode .streaming).fitsMemory := hr.fits h.5
  have hm : (d.enterMode .streaming).mode = .streaming := rfl
  unfold Device.startStream
  generalize d.enterMode .streaming = e at *
  exact Device.beginSession_coherent a h1 h2 h4 h5 hm

/-- R168: STREAM_START keeps the conditions. -/
theorem Device.Coherent.streamStart {d : Device} (h : d.Coherent) : d.streamStart.2.Coherent := by
  unfold Device.streamStart
  split
  · exact h
  · cases d.preferredCandidate with
    | none => exact h
    | some a => dsimp only; exact Device.Coherent.startStream h a

/-- R165: a period start falls due in STREAMING only. -/
theorem Device.periodDue_inSession {d : Device} (h : d.periodDue = true) : d.mode.inSession = true := by
  simp only [Device.periodDue, Bool.and_eq_true, decide_eq_true_eq] at h
  rw [h.1.1.1]; rfl

/-- R105: a port configuration of a size that fits. -/
theorem Device.Coherent.setConfig {d : Device} (h : d.Coherent) (m : PortId) (c : PortConfig) (hw : c.width ≤ 4096) (hh : c.height ≤ 3072) :
    (d.onPort m fun q => { q with config := some c, newestExposure := c.exposure }).Coherent := by
  obtain ⟨h1, h2, h3, h4, h5⟩ := h
  have hp : ∀ n, (d.onPort m fun q => { q with config := some c, newestExposure := c.exposure }).port n =
      if n = m then { d.port n with config := some c, newestExposure := c.exposure } else d.port n := by
    intro n; cases n <;> cases m <;> rfl
  refine ⟨h1, ⟨h2.1, h2.2.1, fun n => ?_⟩, h3, h4, ⟨fun n x hx => ?_, h5.2.1, h5.2.2.1, h5.2.2.2.1, fun n x hx => ?_, h5.2.2.2.2.2⟩⟩
  · rw [hp]; split <;> exact h2.2.2 n
  · rw [hp] at hx
    split at hx
    · cases hx; exact ⟨hw, hh⟩
    · exact h5.1 n x hx
  · rw [hp] at hx
    split at hx <;> exact h5.2.2.2.2.1 n x hx

/-- Table 7-1: an accepted frame size fits its slot. -/
theorem portConfigOf_fits {o : OutputConfig} {f : PortFields} {c : PortConfig} (h : portConfigOf o f = some c) : c.width ≤ 4096 ∧ c.height ≤ 3072 := by
  unfold portConfigOf at h
  split at h
  · cases h
  · split at h
    · next hc =>
      simp only [evenWithin, within, Bool.and_eq_true, decide_eq_true_eq] at hc
      cases h
      exact ⟨hc.1.1.1.1.1.1.1.2, hc.1.1.1.1.1.2.1.2⟩
    · cases h

/-- One port's records replaced by coherent ones. -/
theorem Device.Coherent.setEventSet {d : Device} (h : d.Coherent) (p : CmdPort) (e : EventSet) (he : e.coherent) : (d.setEventSet p e).Coherent := by
  obtain ⟨h1, h2, h3, h4, h5⟩ := h
  cases p
  · exact ⟨⟨he, h1.2⟩, h2, h3, h4, h5⟩
  · exact ⟨⟨h1.1, he, h1.2.2⟩, h2, h3, h4, h5⟩

/-- Each port's records are coherent. -/
theorem Device.Coherent.eventSet {d : Device} (h : d.Coherent) (p : CmdPort) : (d.eventSet p).coherent := by
  cases p
  · exact h.1.1
  · exact h.1.2.1

/-- The Event Unit replaced by a coherent one. -/
theorem Device.Coherent.withEvents {d : Device} (h : d.Coherent) (u : EventUnit) (hu : u.coherent) : ({ d with events := u } : Device).Coherent := ⟨hu, h.2, h.3, h.4, h.5⟩

/-- R42, R43: dropping requests keeps the conditions. -/
theorem Device.Coherent.dropRequests {d : Device} (h : d.Coherent) (l : List ZoomEntry) (hl : l.length ≤ 8) (r : Nat) : (d.dropRequests l r).Coherent := by
  have := Device.Coherent.onPlanner h (fun p => { p with ramp := none, queue := l }) hl rfl rfl rfl
  unfold Device.dropRequests; dsimp only; split
  · exact this.raise _ _
  · exact this

end Sys2Proof.Machine
end

