-- ==== Sys2Proof/Laws/Reports.lean ====
section
/-! SUPPORT. Sys2Proof/Laws/Reports.lean: how long the fields and the records of a reply are (R175, R183, Table 9-6). -/

namespace Sys2Proof.Machine

open Sys2Proof

/-! ### Fields -/

theorem bytesLE_length (width n : Nat) : (bytesLE width n).length = width := by
  induction width generalizing n with
  | zero => rfl
  | succ width ih => simp [bytesLE, ih]

theorem signedLE_length (width : Nat) (x : Int) : (signedLE width x).length = width := bytesLE_length _ _
theorem u8_length (n : Nat) : (u8 n).length = 1 := bytesLE_length _ _
theorem u16_length (n : Nat) : (u16 n).length = 2 := bytesLE_length _ _
theorem u32_length (n : Nat) : (u32 n).length = 4 := bytesLE_length _ _
theorem u48_length (n : Nat) : (u48 n).length = 6 := bytesLE_length _ _
theorem flagByte_length (b : Bool) : (flagByte b).length = 1 := bytesLE_length _ _
theorem portByte_length (m : PortId) : (portByte m).length = 1 := bytesLE_length _ _

/-- R175: an optional field is one byte longer than the field, present or absent. -/
theorem optionalField_length {α : Type} {width : Nat} {field : α → List Byte} (x : Option α)
    (h : ∀ y, (field y).length = width) : (optionalField width field x).length = width + 1 := by
  cases x <;> simp [optionalField, h]

/-! ### Records -/

theorem trailerPort_length (x : Option PortId) : (trailerPort x).length = 1 := by
  cases x
  · exact u8_length _
  · exact portByte_length _

theorem trailerWindow_length (x : Option Window) : (trailerWindow x).length = 8 := by
  cases x <;> simp only [trailerWindow, List.length_append, u16_length]

/-- Table 9-6: 53 bytes. -/
theorem Trailer.bytes_length (t : Trailer) : t.bytes.length = 53 := by
  simp only [Trailer.bytes, List.length_append, trailerPort_length, trailerWindow_length, u8_length, u16_length,
    u32_length, u48_length, signedLE_length]

theorem MotionSample.bytes_length (x : MotionSample) : x.bytes.length = 12 := by
  simp only [MotionSample.bytes, List.length_append, signedLE_length, u16_length, u48_length]

theorem Slot.bytes_length (s : Slot) : s.bytes.length = 9 := by
  simp only [Slot.bytes, List.length_append, u8_length, optionalField_length _ portByte_length,
    optionalField_length _ u32_length]

theorem portConfigBytes_length (m : PortId) (c : PortConfig) : (portConfigBytes m c).length = 20 := by
  simp only [portConfigBytes, List.length_append, u8_length, u16_length, u32_length, portByte_length]

theorem Ramp.bytes_length (r : Ramp) : r.bytes.length = 7 := by
  simp only [Ramp.bytes, List.length_append, u8_length, u16_length]

theorem Residual.bytes_length (r : Residual) : r.bytes.length = 4 := by
  simp only [Residual.bytes, List.length_append, u8_length, signedLE_length]

theorem HandoffContext.bytes_length (c : HandoffContext) : c.bytes.length = 11 := by
  simp only [HandoffContext.bytes, List.length_append, u8_length, portByte_length,
    optionalField_length _ Residual.bytes_length]

theorem LastChange.bytes_length (c : LastChange) : c.bytes.length = 8 := by
  simp only [LastChange.bytes, List.length_append, u8_length, u32_length, portByte_length,
    optionalField_length _ portByte_length]

theorem ProbeContext.bytes_length (c : ProbeContext) : c.bytes.length = 20 := by
  simp only [ProbeContext.bytes, List.length_append, u8_length, u16_length, u32_length, u48_length, portByte_length,
    signedLE_length]

theorem probeResultBytes_length (r : Option ProbeResult) : (probeResultBytes r).length = 20 := by
  cases r
  · exact List.length_replicate
  · simp only [probeResultBytes, List.length_append, u8_length, u32_length, u48_length, portByte_length,
      signedLE_length, flagByte_length]

/-- R183: 14 bytes a record. -/
theorem EventRecord.bytes_length (r : EventRecord) : r.bytes.length = 14 := by
  simp only [EventRecord.bytes, List.length_append, u8_length, u16_length, u32_length]

end Sys2Proof.Machine
end

