-- ==== Sys2Proof/Tests/Slice0.lean ====
section
/-! SUPPORT. Sys2Proof/Tests/Slice0.lean: tests of single steps against the manual's worked figures, the smoke test of
WellFormed, and for each obligation with hypotheses a state and operands that meet them. -/

namespace Sys2Proof.Tests

open Sys2Proof Sys2Proof.Machine

-- One theorem at a time: a `decide +kernel` waits for every theorem before it, each in a thread of its own.
set_option Elab.async false

/-! ### Small states -/

/-- A written calibration record. -/
def record (b s cx cy g : Nat) : Calibration := { written := true, base := b, trim := s, cx := cx, cy := cy, margin := g }

/-- Table 1-2: the records of the example handset. -/
def handset : PerPort Calibration :=
  { p0 := record 50 995 2003 1499 40, p1 := record 100 1000 2001 1497 40, p2 := record 300 1012 1998 1503 40,
    p3 := record 1000 1006 2006 1494 40 }

/-- A port configuration with a 4000×3000 frame. -/
def setup : PortConfig :=
  { width := 4000, height := 3000, readout := 10000, exposure := 10000, deadline := 25000, quota := 3, policy := .warm,
    divisor := 2 }

/-- A LINKED port with it. -/
def linkedPort : ModulePort :=
  { ModulePort.initial with
    config := some setup
    state := .linked
    lanes := some .four
    newestExposure := 10000 }

/-- The example handset in a mode, its ports LINKED, the output 3840×2160. -/
def inMode (m : Mode) : State :=
  { State.reset with
    dev :=
      { Device.initial with
        ctl := { ModeController.initial with
          mode := m, output := { OutputConfig.initial with size := some (3840, 2160) } }
        cal := handset
        ports := PerPort.all linkedPort } }

/-- The handset streaming, port 1 ACTIVE in STEADY, the rest WARM, planning 0 run at time 0. -/
def streaming : State :=
  (inMode .streaming).onDevice fun d =>
    { d with
      ctl := { d.ctl with session := some { start := 0, current := 0, nextPlan := 1 } }
      planner := { d.planner with
        state := some .steady, roles := { p0 := .warm, p1 := .active, p2 := .warm, p3 := .warm }, applied := 104 } }

/-- A state with its View Planner changed. -/
def planned (s : State) (f : Planner → Planner) : State := s.onDevice fun d => d.onPlanner f

/-- A state at a time. -/
def atTime (s : State) (t : Nat) : State := s.onDevice fun d => d.onCtl fun c => { c with timeBase := t }

/-- A state with module port 1 changed. -/
def withPort1 (s : State) (f : ModulePort → ModulePort) : State := s.onDevice fun d => d.onPort .p1 f

/-- The device a step leaves, if it answers a next state. -/
def after (r : Result) : Option Device :=
  match r with
  | .next t => some t.dev
  | .fault _ => none
  | .refused _ => none

/-- The reply of a port after a step. -/
def replyAfter (p : CmdPort) (r : Result) : Option Reply := (after r).map fun d => (d.host p).reply

/-! ### WellFormed -/

theorem test_wellFormed_refuses_an_empty_message : (Instr.unknownCommand .a []).wellFormed = false := by decide
theorem test_wellFormed_refuses_a_message_that_is_a_command :
    (Instr.unknownCommand .a [0x01, 0]).wellFormed = false := by decide
theorem test_wellFormed_refuses_append_with_mode_1 :
    (Instr.zoomRequestAppend .a 7 325 9 1).wellFormed = false := by decide
theorem test_wellFormed_refuses_hold_on_with_0 : (Instr.handoffHoldOn .m 0 3).wellFormed = false := by decide
theorem test_wellFormed_refuses_ack_of_no_kind : (Instr.ackEvents .m []).wellFormed = false := by decide
theorem test_wellFormed_refuses_ack_of_22_kinds :
    (Instr.ackEvents .m (List.replicate 22 0)).wellFormed = false := by decide
theorem test_wellFormed_refuses_wrong_chroma :
    (Instr.pixelLine .p0 [1, 2, 3, 4] [1] [1] true).wellFormed = false := by decide

/-! ### Messages, written out from Tables 11-1, 11-3 and 11-4 -/

theorem test_message_motionSample :
    decodeMessage .m [0x32, 0x06, 0xF4, 0x01, 0x10, 0xFF, 0x40, 0x1F] = .motionSample .m 0x01F4 0xFF10 0x1F40 := by
  decide
theorem test_message_append :
    decodeMessage .a [0x29, 5, 7, 0x45, 0x01, 9, 0] = .zoomRequestAppend .a 7 325 9 0 := by decide
theorem test_message_replace : decodeMessage .a [0x29, 5, 9, 0xF4, 0x01, 2, 1] = .zoomRequestReplace .a 9 500 2 := by
  decide
theorem test_message_hold_on : decodeMessage .a [0x30, 2, 1, 3] = .handoffHoldOn .a 1 3 := by decide
theorem test_message_hold_off : decodeMessage .m [0x30, 2, 0, 3] = .handoffHoldOff .m 3 := by decide
theorem test_message_eventConfig :
    decodeMessage .a [0x48, 7, 0x01, 0x02, 0x10, 0x00, 0x80, 0x1F, 3] = .eventConfig .a 0x100201 0x1F8000 3 := by decide
theorem test_message_ackEvents : decodeMessage .m [0x4A, 2, 10, 18] = .ackEvents .m [10, 18] := by decide
theorem test_message_calWrite :
    decodeMessage .a [0x18, 10, 1, 100, 0, 0xE8, 0x03, 0xD1, 0x07, 0xD9, 0x05, 40] =
      .calWrite .a { port := 1, base := 100, trim := 1000, cx := 2001, cy := 1497, margin := 40 } := by decide
theorem test_message_outputConfig :
    decodeMessage .a [0x20, 17, 0x00, 0x0F, 0x70, 0x08, 0x35, 0x82, 0, 0, 2, 0xA0, 0x0F, 0, 0, 0x10, 0x27, 0, 0] =
      .outputConfig .a
        { width := 3840, height := 2160, period := 33333, latency := 2, guard := 4000, exposureRef := 10000 } := by
  decide
theorem test_message_ack_of_none_is_unknown : decodeMessage .a [0x4A, 0] = .unknownCommand .a [0x4A, 0] := by decide
theorem test_message_unknown_code : decodeMessage .a [0x07, 0] = .unknownCommand .a [0x07, 0] := by decide
theorem test_message_wrong_length : decodeMessage .m [0x03, 1, 0] = .unknownCommand .m [0x03, 1, 0] := by decide
theorem test_no_word_spells_a_command : decodeTableWord 8 0x01 = none := by decide

/-! ### Bus transactions (R171, R172) -/

/-- Table 11-4: the command as an SPI write, and its reply as an SPI read. -/
theorem test_spi_write_joins_the_queue :
    (State.reset.spiTransaction [0x01, 0x32, 0x06, 0xF4, 0x01, 0x10, 0xFF, 0x40, 0x1F]).1.pending =
      [.motionSample .a 0x01F4 0xFF10 0x1F40] := by decide +kernel
theorem test_spi_read_sends_the_reply :
    ((State.reset.onDevice fun d => d.setReply .a { status := .clamped, payload := [0xE0, 0x01] }).spiTransaction
      [0x02, 0, 0, 0, 0, 0, 0]).2 =
      [none, none, some (BitVec.ofNat 8 Status.clamped.code), some 2, some 0xE0, some 0x01, some 0] := by decide +kernel
theorem test_empty_write_is_no_command : (State.reset.spiTransaction [0x01]).1.pending = [] := by decide +kernel
/-- R171: a pin reset after the command byte ends the transaction; the bytes after it and the rise of SPI_CS_N do nothing. -/
theorem test_a_write_cut_by_a_reset_is_not_taken :
    let begun := (State.reset.spiSelect.spiClockAll [0x01, 0x03]).1
    (after (exec .pinReset begun)).map (fun d =>
      (({ begun with dev := d } : State).spiClockAll [0x00]).1.spiDeselect.pending) = some [] ∧
      (begun.spiClockAll [0x00]).1.spiDeselect.pending = [.wake .a] := by decide +kernel
/-- R172: the address with ADDR low, the same write by I2C, and an address that is not the port's. -/
theorem test_i2c_write_joins_the_queue :
    ((((State.reset.i2cStart 0x2C false).1.i2cWriteByte 0x03).1.i2cWriteByte 0x00).1.i2cStop.pending,
      (State.reset.i2cStart 0x2C false).2, (State.reset.i2cStart 0x2D false).2) = ([.wake .m], true, false) := by
  decide +kernel
/-- R172, R163: a SOFT_RESET written to Port M, a repeated START and a read: the read gives the OK of the SOFT_RESET, length
0, and runs until the STOP; Port A's transaction is ended, and so is a write to Port M by a SOFT_RESET taken on Port A. -/
theorem test_soft_reset_read_by_repeated_start :
    let selected := streaming.onDevice fun d => d.setBus .a (some (.write [0x03]))
    let written := ((selected.i2cStart 0x2C false).1.i2cWriteByte 0x05).1.i2cWriteByte 0x00
    let restarted := (written.1.i2cStart 0x2C true).1
    let begun := ((streaming.i2cStart 0x2C false).1.i2cWriteByte 0x05).1
    restarted.pending = [.softReset .m] ∧
      ((after (step restarted)).map fun d =>
        let t : State := { restarted with dev := d, pending := [] }
        (d.mode, d.hostA.bus, t.i2cReadByte.2, t.i2cReadByte.1.i2cReadByte.2, t.i2cReadByte.1.i2cStop.dev.hostM.bus)) =
        some (.resetting, none, some (BitVec.ofNat 8 Status.ok.code), some 0, none) ∧
      (after (exec (.softReset .a) begun)).map (fun d => d.hostM.bus) = some none := by decide +kernel
/-- R172: a read sends the status, the length, the payload, and 0x00 after it. -/
theorem test_i2c_read_sends_the_reply :
    let replied := State.reset.onDevice fun d => d.setReply .m { status := .clamped, payload := [0xE0, 0x01] }
    ((List.range 5).map fun n => ((fun x : State => x.i2cReadByte.1)^[n] (replied.i2cStart 0x2C true).1).i2cReadByte.2) =
      [some (BitVec.ofNat 8 Status.clamped.code), some 2, some 0xE0, some 0x01, some 0] := by decide +kernel

/-! ### Worked figures -/

/-- Table 2-1. -/
theorem test_rounding_words :
    [floorDiv (-15) 2, ceilDiv (-15) 2, truncDiv (-15) 2, evenFloorDiv (-15) 2, evenCeilDiv (-15) 2,
      evenTowardZeroDiv (-15) 2] = [-8, -7, -7, -8, -6, -6] ∧
      [evenFloorDiv (-3) 1, evenCeilDiv (-3) 1, evenTowardZeroDiv (-3) 1] = [-4, -2, -2] := by decide

/-- Table 1-3. -/
theorem test_derived_bounds :
    PortId.all.map (fun m => ((handset.get m).lower, (handset.get m).down 20, (handset.get m).up 20)) =
      [(52, 54, 55), (104, 107, 109), (312, 319, 325), (1040, 1061, 1082)] := by decide

/-- Tables 2-4, 2-6 (with the residual of the text below it), 2-7, 2-8 and 2-10. -/
def windowOf (m : PortId) (out : Nat × Nat) (zoom : Nat) (ex ey rx ry : Int) : WindowAnswer :=
  let c := handset.get m
  WindowInputs.answer
    { wm := 4000, hm := 3000, wo := out.1, ho := out.2, base := c.base, trim := c.trim, cx := c.cx, cy := c.cy,
      zoom := zoom, ex := ex, ey := ey, rx := rx, ry := ry }

theorem test_window_wide : windowOf .p1 (3840, 2160) 250 96 (-30) 0 0 =
    { window := { x0 := 1240, y0 := 1034, w := 1600, h := 900 }, edge := false, floorFlag := false } := by decide +kernel
theorem test_window_tele_with_residual : windowOf .p2 (3840, 2160) 330 (-50) 21 12 (-4) =
    { window := { x0 := 168, y0 := 506, w := 3592, h := 2020 }, edge := false, floorFlag := false } := by decide +kernel
theorem test_window_edge : windowOf .p1 (3840, 2160) 104 480 0 0 0 =
    { window := { x0 := 154, y0 := 416, w := 3846, h := 2162 }, edge := true, floorFlag := false } := by decide +kernel
theorem test_window_floor : windowOf .p1 (3840, 2160) 10000 96 (-30) 0 0 =
    { window := { x0 := 1886, y0 := 1430, w := 240, h := 134 }, edge := false, floorFlag := true } := by decide +kernel
theorem test_window_portrait : windowOf .p1 (1440, 1920) 104 0 0 0 0 =
    { window := { x0 := 876, y0 := 0, w := 2250, h := 3000 }, edge := true, floorFlag := false } := by decide +kernel

/-- Table 2-5. -/
theorem test_scaler_positions :
    [0, 1, 2, 3, 4, 3839].map (sourcePosition 1240 1600 3840) =
      [256 * 1240, 256 * 1240 + 32, 256 * 1240 + 138, 256 * 1240 + 245, 256 * 1241 + 96, 256 * 2839] := by decide

/-- Table 3-6. -/
theorem test_falling_ramp :
    (List.range 8).map { id := 21, start := 1100, target := 300, length := 7, step := 0 : Ramp }.zoomAt =
      [1100, 986, 872, 758, 643, 529, 415, 300] := by decide

/-- Table 5-8, and the weights of a blend of 6 steps. -/
theorem test_blend_schedule :
    [1, 2, 3, 4, 5, 6].map (fun j => (residualStep 6 j 14, residualStep 6 j (-10), blendWeight 6 j)) =
      [(12, -8, 36), (10, -6, 73), (8, -4, 109), (6, -4, 146), (4, -2, 182), (2, 0, 219)] := by decide

/-- Table 7-7: the issue time after T_k for each newest exposure. -/
theorem test_fsync_phase :
    [10000, 4000, 2500, 9999, 16000].map (fun e =>
      ((streaming.dev.onPort .p1 fun q => { q with newestExposure := e }).requestFsync 0 .p1 |>.port .p1).pendingFsync.map
        Expectation.issue) = [some 100, some 3100, some 3850, some 100, some 100] := by decide

/-- Table 1-5, and the third line of Table 1-6. -/
theorem test_preferred_port :
    [52, 100, 104, 250, 312, 1039, 1040, 10000].map
        (fun z => streaming.dev.preferred (portsWhere streaming.dev.isCandidate) z) =
      [some .p0, some .p0, some .p1, some .p1, some .p2, some .p2, some .p3, some .p3] ∧
    ((streaming.dev.setBar .p3 9).preferred (portsWhere (streaming.dev.setBar .p3 9).isCandidate) 2000) = some .p2 := by
  decide +kernel

/-- Samples of no movement with the given stamps. -/
def samplesAt (stamps : List Nat) : List MotionSample := stamps.map fun t => { ex := 9, ey := -4, q := 5, stamp := t }

/-- Table 6-2. -/
theorem test_lookups :
    ([[1981350, 2001350, 2002350], [1949000, 1975000, 2008000], [2005000], []].map fun ring =>
      ({ streaming.dev with motion := samplesAt ring } : Device).lookup 2002100) =
      [{ ex := 9, ey := -4, noMotion := false, stale := false }, { ex := 9, ey := -4, noMotion := false, stale := true },
       { ex := 0, ey := 0, noMotion := true, stale := false }, { ex := 0, ey := 0, noMotion := true, stale := false }] := by
  decide +kernel

/-! ### Steps -/

theorem test_getId_reply : replyAfter .m (exec (.getId .m) State.reset) =
    some { status := .ok, payload := [0x48, 0x34, 0x5A, 0x02] } := by decide +kernel
theorem test_getStatus_has_158_bytes :
    (replyAfter .a (exec (.getStatus .a) streaming)).map (fun r => r.payload.length) = some 158 := by decide +kernel
/-- Table 1-7, step 3 of the text below Table 1-3. -/
theorem test_zoomSet_is_clamped : replyAfter .a (exec (.zoomSet .a 50) (inMode .standby)) =
    some { status := .clamped, payload := [52, 0] } := by decide +kernel
/-- Table 1-7, step 6. -/
theorem test_calWrite_again_is_locked :
    replyAfter .a (exec (.calWrite .a { port := 1, base := 100, trim := 1000, cx := 1, cy := 1, margin := 0 })
      (inMode .standby)) = some { status := .locked, payload := [] } := by decide +kernel
/-- Table 11-4. -/
theorem test_motionSample_reply :
    replyAfter .m (exec (.motionSample .m 0x01F4 0xFF10 0x1F40)
      (streaming.onDevice fun d => { d with motion := samplesAt (List.replicate 31 0) })) =
      some { status := .clamped, payload := [0xE0, 0x01, 0x10, 0xFF, 0x20] } := by decide +kernel
theorem test_motionSample_outside_streaming :
    replyAfter .m (exec (.motionSample .m 1 1 1) (inMode .standby)) = some { status := .wrongMode, payload := [] } := by
  decide +kernel
/-- Table 3-5: the ramp of id 8 at 762 and the entry of id 10 are dropped. -/
theorem test_replace_drops_two :
    replyAfter .a (exec (.zoomRequestReplace .a 9 500 2) (planned streaming fun p =>
      { p with nominal := 762, ramp := some { id := 8, start := 325, target := 1200, length := 4, step := 2 },
               queue := [{ id := 10, target := 2000, length := 30 }] })) =
      some { status := .accepted, payload := [0xF4, 0x01, 2, 2] } := by decide +kernel
/-- Table 3-7. -/
theorem test_ninth_append_is_refused :
    replyAfter .a (exec (.zoomRequestAppend .a 39 500 1 0) (planned streaming fun p =>
      { p with queue := List.replicate 8 { id := 31, target := 500, length := 1 } })) =
      some { status := .queueFull, payload := [] } := by decide +kernel
/-- Table 3-4, T_10: the ramp of id 7 completes at 325. -/
theorem test_ramp_completes :
    ((after (exec .rampComplete (atTime (planned streaming fun p =>
      { p with nominal := 300, ramp := some { id := 7, start := 100, target := 325, length := 9, step := 8 } }) 33333))).map
        fun d => (d.planner.nominal, d.planner.ramp, d.planner.plans.map ViewPlan.requestId)) =
      some (325, none, [some 7]) := by decide +kernel
/-- Table 6-3, the last row: the hold ends, and port 2 becomes the DEST. -/
theorem test_hold_expires_into_prepare :
    ((after (exec .holdExpired (atTime (planned streaming fun p => { p with nominal := 325, hold := 1 }) 33333))).map
      fun d => (d.planner.hold, d.planner.state, d.role .p2)) = some (0, some .prepare, .dest) := by decide +kernel
/-- Table 6-4, the first row. -/
theorem test_capture_edge :
    ((after (exec (.captureEdge .rising) (planned streaming fun p => { p with captureSelect := .rising }))).map
      fun d => (d.planner.guard, d.planner.markPending)) = some (3, true) := by decide +kernel
/-- Table 7-8: the header arrives in window 1, on two lanes. -/
theorem test_header_links_on_two_lanes :
    ((after (exec (.frameStart .p1
        { counter := 5, exposure := 2000, settled := true, width := 4000, height := 3000, lanes := .two, checkOk := true,
          straddles := false })
      (withPort1 (inMode .standby) fun q => { q with state := .seeking, window := 1, lanes := none }))).map
      fun d => ((d.port .p1).state, (d.port .p1).lanes, (d.port .p1).newestExposure)) =
      some (.linked, some .two, 2000) := by decide +kernel
/-- Table 7-9: the third missed period in a row stalls the port. -/
theorem test_third_missed_period_stalls :
    ((after (exec (.frameDeadline .p1) (atTime (withPort1 streaming fun q =>
      { q with badPeriods := 2, expectations := [{ period := 63, issue := 0, deadline := 25000 }] }) 25000))).map
      fun d => ((d.port .p1).state, (d.port .p1).badPeriods, (d.port .p1).missed)) = some (.stalled, 3, 1) := by
  decide +kernel

/-! ### Witnesses: states and operands that meet the hypotheses of each obligation, clause by clause -/

theorem witness_StepTakesTheFrontCommand :
    ({ State.reset with pending := [.getId .a, .pinReset] } : State).pending = .getId .a :: [.pinReset] := rfl

theorem witness_TickRunsTheTimeBase :
    State.reset.pending = [] ∧ State.reset.dev.mode = .dormant ∧ (inMode .standby).pending = [] ∧
      (inMode .standby).dev.ctl.resetLow = false ∧ (inMode .standby).dev.mode ≠ .dormant := by decide +kernel

/-- A row due at its time and not 1 µs before, and the probe at 1,500 µs. -/
theorem witness_TickRunsTheTimeBase_due :
    let at_ := fun t => (atTime streaming t).dev
    Instr.periodStart ∈ (at_ 33333).dueCommands 0 ∧ Instr.periodStart ∉ (at_ 33332).dueCommands 0 ∧
      Instr.wakeComplete ∈ (atTime (inMode .waking) 2000).dev.dueCommands 0 ∧
      Instr.wakeComplete ∉ (atTime (inMode .waking) 1999).dev.dueCommands 0 ∧
      (streaming.dev.port .p1).config = some setup ∧
      ∃ c : ProbeContext, ({ at_ 1500 with probe := some c } : Device).probe = some c ∧
        c.start + 1500 ≤ (at_ 1500).now :=
  ⟨by decide +kernel, by decide +kernel, by decide +kernel, by decide +kernel, by decide +kernel,
    { activePort := .p1, destPort := .p2, activeSlot := 1, destSlot := 2, period := 1, zoom := 325, ex := 0, ey := 0,
      start := 0 }, rfl, by decide +kernel⟩

/-- One message for each step of R173, at 30 and 31 payload bytes. -/
theorem witness_MalformedMessageIsRefused :
    State.reset.dev.ctl.resetLow = false ∧ (inMode .waking).dev.mode = .waking ∧
      (Instr.unknownCommand .a [0x01, 31]).wellFormed = true ∧
      (Instr.unknownCommand .a (0x01 :: 30 :: List.replicate 30 0)).wellFormed = true ∧
      (Instr.unknownCommand .m [0x07, 0]).wellFormed = true ∧ (Instr.unknownCommand .m [0x03, 1, 0]).wellFormed = true ∧
      (∀ c ∈ Command.all, c.code ≠ (0x07 : Byte).toNat) := by decide +kernel

/-- A command for each clause. -/
theorem witness_ModeTableRefusals :
    [Mode.dormant, .waking, .standby, .streaming, .stopping].all (fun m => !(inMode m).dev.ctl.resetLow) = true ∧
      (Instr.wake .a).command? = some (.a, .wake) ∧ (Instr.sleep .m).command? = some (.m, .sleep) ∧
      (Instr.outputFence .a).command? = some (.a, .outputFence) ∧
      (Instr.streamStart .a).command? = some (.a, .streamStart) ∧
      (Instr.streamStop .m).command? = some (.m, .streamStop) := by decide +kernel

theorem witness_RepliesStayOnTheirPort :
    ∃ t, (Instr.wake .a).isReset = false ∧ (Instr.wake .a).sender? ≠ some .m ∧
      exec (.wake .a) State.reset = .next t := ⟨_, by decide, by decide, rfl⟩

/-- A reset of each kind and a command that is none, idle and writing buses, and both addresses of Port M. -/
theorem witness_RepliesStayOnTheirPort_buses :
    let writing := State.reset.onDevice fun d => d.setBus .m (some (.write [0x03]))
    let high := State.reset.onDevice fun d => d.onCtl fun c => { c with addrHigh := true }
    Instr.pinReset.isReset = true ∧ streaming.dev.ctl.resetLow = false ∧ streaming.dev.mode = .streaming ∧
      State.reset.dev.mode = .dormant ∧ (State.reset.dev.host .a).bus = none ∧ (State.reset.dev.host .m).bus = none ∧
      (writing.dev.host .m).bus = some (.write [0x03]) ∧ (0x03 : Byte) ≠ 0x01 ∧ (0x03 : Byte) ≠ 0x02 ∧
      0x2C = (if State.reset.dev.ctl.addrHigh then 0x2D else 0x2C) ∧
      0x2D = (if high.dev.ctl.addrHigh then 0x2D else 0x2C) ∧ high.dev.ctl.resetLow = false ∧
      ¬ 0x2D = (if State.reset.dev.ctl.addrHigh then 0x2D else 0x2C) ∧
      (after (exec (.softReset .a) streaming)).map Device.mode = some .resetting := by decide +kernel

/-- A read of Port M under way at a SOFT_RESET of Port A; a write of SOFT_RESET read by a repeated START. -/
theorem witness_RepliesStayOnTheirPort_reads :
    ((streaming.i2cStart 0x2C true).1.dev.host .m).bus = some (.read none) ∧ CmdPort.a ≠ CmdPort.m ∧
      (∃ t, exec (.softReset .a) (streaming.i2cStart 0x2C true).1 = .next t) ∧ streaming.pending = [] ∧
      (streaming.dev.host .m).bus = none ∧ ([0x05, 0x00] : List Byte) ≠ [] ∧
      0x2C = (if streaming.dev.ctl.addrHigh then 0x2D else 0x2C) ∧
      ∃ v, step ((((streaming.i2cStart 0x2C false).1.i2cWriteByte 0x05).1.i2cWriteByte 0x00).1.i2cStart 0x2C true).1 =
        .next v :=
  ⟨by decide +kernel, by decide, ⟨_, rfl⟩, rfl, rfl, by decide, by decide +kernel, _, rfl⟩

theorem witness_IdentityAndStatusAreReported :
    State.reset.dev.ctl.resetLow = false ∧ State.reset.dev.slots.length = 12 := by decide +kernel

theorem witness_QueriesChangeOnlyTheReply :
    (inMode .standby).dev.ctl.resetLow = false ∧ (inMode .standby).dev.mode ≠ .waking ∧
      (inMode .standby).dev.mode ≠ .resetting ∧ 3 < (4 : Byte).toNat := by decide +kernel

/-- The state while RESET_N is low. -/
def heldInReset : State := { State.reset with dev := Device.poweredOn .pin true false }

theorem witness_PowerOnPinResetAndRelease :
    heldInReset.dev.ctl.resetLow = true ∧ State.reset.dev.ctl.resetLow = false := by decide +kernel

theorem witness_NothingActsWhileResetIsLow :
    heldInReset.dev = Device.poweredOn .pin true false ∧ (Instr.wake .a).isReset = false ∧
      (∀ level, Instr.wake .a ≠ .resetRelease level) ∧ heldInReset.pending = [] :=
  ⟨rfl, rfl, fun _ h => (by cases h), rfl⟩

theorem witness_WakeAndSleepChangeTheMode :
    State.reset.dev.ctl.resetLow = false ∧ State.reset.dev.mode = .dormant ∧
      (inMode .standby).dev.ctl.resetLow = false ∧ (inMode .standby).dev.mode = .standby := by decide +kernel

/-- The times of entry to STANDBY, at their boundaries. -/
theorem witness_TimedEntriesToStandby :
    (atTime (inMode .waking) 2000).dev.mode = .waking ∧
      (atTime (inMode .waking) 2000).dev.ctl.enteredAt + 2000 ≤ (atTime (inMode .waking) 2000).dev.now ∧
      ¬ (atTime (inMode .waking) 1999).dev.ctl.enteredAt + 2000 ≤ (atTime (inMode .waking) 1999).dev.now ∧
      (atTime (inMode .resetting) 1000).dev.mode = .resetting ∧
      (atTime (inMode .resetting) 1000).dev.ctl.enteredAt + 1000 ≤ (atTime (inMode .resetting) 1000).dev.now := by
  decide +kernel

/-- The state that SOFT_RESET leaves, 1,000 µs later. -/
def softResetDone (s : State) : State :=
  s.onDevice fun d => { d with ctl := { d.ctl with timeBase := d.ctl.enteredAt + 1000 } }

theorem witness_SoftResetValues :
    streaming.dev.ctl.resetLow = false ∧ streaming.dev.mode = .streaming ∧
      ∃ t v, exec (.softReset .a) streaming = .next t ∧ exec .softResetComplete (softResetDone t) = .next v :=
  ⟨by decide +kernel, by decide +kernel, _, _, rfl, rfl⟩

/-- Configurations at the ends of their ranges and one past them. -/
theorem witness_ConfigurationsAreCheckedAndSet :
    (inMode .standby).dev.ctl.resetLow = false ∧ (inMode .standby).dev.mode = .standby ∧
      [replyAfter .a (exec (.outputConfig .a
          { width := 640, height := 360, period := 8333, latency := 1, guard := 1000, exposureRef := 100 })
          (inMode .standby)),
        replyAfter .a (exec (.outputConfig .a
          { width := 638, height := 360, period := 8333, latency := 1, guard := 1000, exposureRef := 100 })
          (inMode .standby)),
        replyAfter .a (exec (.handoffConfig .a
          { hysteresis := 100, blendLength := 16, prepareLimit := 60, deferralLimit := 60, probeThreshold := 255,
            motionLimit := 65535, backoff := 255, stallLimit := 15, deadLimit := 255, freezeLimit := 255,
            guardLength := 30, staleLimit := 100000 }) (inMode .standby)),
        replyAfter .a (exec (.handoffConfig .a
          { hysteresis := 101, blendLength := 16, prepareLimit := 60, deferralLimit := 60, probeThreshold := 255,
            motionLimit := 65535, backoff := 255, stallLimit := 15, deadLimit := 255, freezeLimit := 255,
            guardLength := 30, staleLimit := 100000 }) (inMode .standby))].map (Option.map Reply.status) =
        [some .ok, some .badParam, some .ok, some .badParam] := by decide +kernel

/-- The handset in STANDBY with port 1's record empty. -/
def uncalibrated : State := (inMode .standby).onDevice fun d => { d with cal := d.cal.set .p1 Calibration.initial }

theorem witness_CalWriteIsCheckedAndLocks :
    uncalibrated.dev.ctl.resetLow = false ∧ uncalibrated.dev.mode = .standby ∧ 3 < (4 : Byte).toNat ∧
      (1 : Byte).toNat = PortId.p1.toNat ∧ (2 : Byte).toNat = PortId.p2.toNat ∧
      (uncalibrated.dev.calOf .p2).written = true ∧ (uncalibrated.dev.calOf .p1).written = false ∧
      (uncalibrated.dev.port .p1).config ≠ none ∧
      ((withPort1 uncalibrated fun _ => ModulePort.initial).dev.port .p1).config = none ∧
      [replyAfter .a (exec (.calWrite .a { port := 1, base := 25, trim := 970, cx := 3999, cy := 2999, margin := 200 })
          uncalibrated),
        replyAfter .a (exec (.calWrite .a { port := 1, base := 25, trim := 970, cx := 4000, cy := 2999, margin := 200 })
          uncalibrated)].map (Option.map Reply.status) = [some .ok, some .badParam] := by decide +kernel

theorem witness_SettingsAreKept :
    ∃ t, (Instr.getView .a).isReset = false ∧ exec (.getView .a) (inMode .standby) = .next t ∧
      ((inMode .standby).dev.calOf .p0).written = true ∧ (∀ p, Instr.getView .a ≠ .softReset p) ∧
      (∀ p f, Instr.getView .a ≠ .outputConfig p f) ∧ (∀ p f, Instr.getView .a ≠ .handoffConfig p f) ∧
      ∀ p f, Instr.getView .a ≠ .portConfig p f :=
  ⟨_, rfl, rfl, by decide +kernel, fun _ h => (by cases h), fun _ _ h => (by cases h), fun _ _ h => (by cases h),
    fun _ _ h => (by cases h)⟩

/-- 0 lies under both sign clauses, and both give 0 there. -/
theorem witness_RoundingWordsAreExact :
    0 < 2 ∧ truncDiv 0 2 = 0 ∧ evenTowardZeroDiv 0 2 = 0 ∧ truncDiv 1 2 = 0 ∧ truncDiv (-1) 2 = 0 := by decide

theorem witness_BoundsThresholdsAndLimits :
    (25 ≤ (record 25 1000 1 1 200).base ∧ (record 5000 1000 1 1 200).base ≤ 5000 ∧
        (record 5000 1000 1 1 200).margin ≤ 200 ∧ (record 5000 1000 1 1 200).lower = 6000 ∧
        (record 5000 1000 1 1 200).up 100 = 7200 ∧ 1000 ≤ (record 50 995 2003 1499 40).lower * 20 ∧
        (record 50 995 2003 1499 40).down 0 = 52) ∧
      ((State.reset.dev.calOf .p0).written = false ∧ State.reset.dev.zmin = 50) ∧
      ((streaming.dev.calOf .p0).written = true ∧ streaming.dev.zmin = 52 ∧ streaming.dev.clampZoom 52 = 52 ∧
        streaming.dev.clampZoom 51 = 52 ∧ streaming.dev.clampZoom 10000 = 10000 ∧
        streaming.dev.clampZoom 10001 = 10000) := by decide +kernel

/-- The smallest lower bound of the handset is port 0's. -/
theorem witness_BoundsThresholdsAndLimits_least :
    ∀ n, (streaming.dev.calOf n).written = true → (streaming.dev.calOf .p0).lower ≤ (streaming.dev.calOf n).lower :=
  fun n _ => by cases n <;> decide +kernel

theorem witness_PreferredPortIsTheRules :
    streaming.dev.preferred (portsWhere fun _ => true) 104 = some .p1 ∧ (streaming.dev.calOf .p1).lower ≤ 104 ∧
      streaming.dev.preferred (portsWhere fun n => decide (n = .p3)) 1039 = some .p3 ∧
      1039 < (streaming.dev.calOf .p3).lower ∧ streaming.dev.preferred (portsWhere fun _ => false) 104 = none := by
  decide +kernel

/-- Table 2-2 at the ends of its ranges. -/
def extremeInputs : WindowInputs :=
  { wm := 640, hm := 480, wo := 3840, ho := 360, base := 25, trim := 1030, cx := 639, cy := 479, zoom := 10000,
    ex := 480, ey := -45, rx := 16, ry := -16 }

theorem witness_WindowLiesInTheFrame :
    640 ≤ extremeInputs.wm ∧ extremeInputs.wm ≤ 4096 ∧ extremeInputs.wm % 2 = 0 ∧ 480 ≤ extremeInputs.hm ∧
      extremeInputs.hm % 2 = 0 ∧ extremeInputs.wo ≤ 3840 ∧ extremeInputs.wo % 2 = 0 ∧ 360 ≤ extremeInputs.ho ∧
      extremeInputs.ho % 2 = 0 ∧ 25 ≤ extremeInputs.base ∧ extremeInputs.trim ≤ 1030 ∧ 50 ≤ extremeInputs.zoom ∧
      extremeInputs.zoom ≤ 10000 ∧ extremeInputs.answer.edge = true ∧ extremeInputs.answer.floorFlag = true := by
  decide +kernel

theorem witness_ScalerReadsOnlyTheWindow :
    let win : Window := { x0 := 2, y0 := 4, w := 64, h := 6 }
    0 < win.w ∧ 0 < win.h ∧ 3839 < (3840, 360).1 ∧ 359 < (3840, 360).2 ∧
      ∀ col row : Nat, win.x0 ≤ col → col < win.x0 + win.w → win.y0 ≤ row → row < win.y0 + win.h →
        (fun _ _ => 255 : Nat → Nat → Nat) col row =
          (fun c r => if c < 66 ∧ r < 10 then 255 else 0 : Nat → Nat → Nat) col row ∧
          (fun _ _ => 255 : Nat → Nat → Nat) col row ≤ 255 := by
  refine ⟨by decide, by decide, by decide, by decide, fun col row _ h1 _ h2 => ?_⟩
  exact ⟨by simp only; rw [if_pos ⟨h1, h2⟩], Nat.le_refl 255⟩

theorem witness_ZoomTargetsAreClampedAndTaken :
    (inMode .standby).dev.ctl.resetLow = false ∧ (inMode .standby).dev.mode = .standby ∧
      streaming.dev.ctl.resetLow = false ∧ streaming.dev.mode = .streaming ∧ (2 : Byte) ≠ 0 ∧
      8 ≤ (planned streaming fun p =>
        { p with queue := List.replicate 8 { id := 1, target := 100, length := 1 } }).dev.planner.queue.length := by
  decide +kernel

theorem witness_ReplaceAndCancelDropRequests :
    streaming.dev.ctl.resetLow = false ∧ streaming.dev.mode = .streaming ∧ streaming.dev.planner.ramp = none := by
  decide +kernel

theorem witness_RampStepsReachTheTarget :
    let r : Ramp := { id := 1, start := 100, target := 103, length := 5, step := 3 }
    let e : ZoomEntry := { id := 2, target := 300, length := 0 }
    let pl := Planner.initial
    ({ pl with ramp := some r }.ramp = some r ∧ r.step + 1 < r.length) ∧
      ({ r with step := 4 }.length ≤ { r with step := 4 }.step + 1) ∧ (pl.ramp = none ∧ pl.queue = []) ∧
      ({ pl with queue := [e] }.queue = e :: [] ∧ e.length = 0) ∧ (1 ≤ { e with length := 1 }.length) ∧
      (1 ≤ r.length ∧ 0 ≤ 5 ∧ 5 ≤ r.length ∧ r.start ≤ r.target) := by decide +kernel

theorem witness_MotionSampleIsSaturatedAndKept :
    streaming.dev.ctl.resetLow = false ∧ streaming.dev.mode = .streaming ∧
      streaming.dev.ctl.output.size = some (3840, 2160) := by decide +kernel

theorem witness_MotionLookupFindsTheNewestSample :
    let d : Device := { streaming.dev with motion := samplesAt [5, 10, 10, 20] }
    d.motion = samplesAt [5, 10] ++ { ex := 9, ey := -4, q := 5, stamp := 10 } :: samplesAt [20] ∧ 10 ≤ 10 ∧
      (∀ y ∈ samplesAt [20], 10 < y.stamp) ∧ (∀ x ∈ d.motion, 4 < x.stamp) ∧ streaming.dev.motion = [] ∧
      d.motion = samplesAt [5, 10, 10] ++ [{ ex := 9, ey := -4, q := 5, stamp := 20 }] := by decide +kernel

theorem witness_HoldAndCaptureSelectionAreSet :
    streaming.dev.ctl.resetLow = false ∧ streaming.dev.mode = .streaming ∧ (1 : Byte) = 1 ∧ (255 : Byte) ≠ 0 ∧
      (inMode .standby).dev.mode = .standby ∧ 3 < (4 : Byte).toNat := by decide +kernel

theorem witness_CaptureEdgeSetsGuardAndMark :
    streaming.dev.mode = .streaming ∧ streaming.dev.planner.captureSelect = .none ∧
      (planned streaming fun p => { p with captureSelect := .rising }).dev.planner.captureSelect = .rising ∧
      (inMode .standby).dev.mode ≠ .streaming := by decide +kernel

/-- The handset in STANDBY with port 1 OFF. -/
def portOff : State := withPort1 (inMode .standby) fun q => { q with state := .off, lanes := none }

/-- PORT_CONFIG fields at the ends of their ranges. -/
def edgeFields : PortFields :=
  { port := 1, width := 640, height := 480, readout := 1000, exposure := 10, deadline := 8334, quota := 3, policy := 1,
    divisor := 4 }

theorem witness_PortConfigIsCheckedAndSet :
    portOff.dev.ctl.resetLow = false ∧ portOff.dev.mode = .standby ∧ 3 < (4 : Byte).toNat ∧
      edgeFields.port.toNat = PortId.p1.toNat ∧
      [replyAfter .a (exec (.portConfig .a edgeFields) portOff),
        replyAfter .a (exec (.portConfig .a { edgeFields with deadline := 8333 }) portOff),
        replyAfter .a (exec (.portConfig .a { edgeFields with quota := 4 }) portOff),
        replyAfter .a (exec (.portConfig .a edgeFields) (inMode .standby))].map (Option.map Reply.status) =
        [some .ok, some .badParam, some .badParam, some .busy] := by decide +kernel

theorem witness_PortEnableAndDisable :
    streaming.dev.ctl.resetLow = false ∧ streaming.dev.mode = .streaming ∧ 3 < (4 : Byte).toNat ∧
      (1 : Byte).toNat = PortId.p1.toNat ∧ (streaming.dev.port .p1).config ≠ none ∧
      (streaming.dev.port .p1).state ≠ .resetting ∧ (streaming.dev.port .p1).state ≠ .seeking ∧
      ((withPort1 streaming fun q => { q with state := .seeking }).dev.port .p1).state = .seeking ∧
      ((withPort1 streaming fun _ => ModulePort.initial).dev.port .p1).config = none := by decide +kernel

/-- Port 1 in SEEKING since 0, with window `w` open, at time `t`. -/
def seekingAt (w t : Nat) : State :=
  atTime (withPort1 (inMode .standby) fun q => { q with state := .seeking, lanes := none, window := w }) t

theorem witness_PulsesAndSeekWindowsAreTimed :
    ((seekingAt 10 5000).dev.port .p1).state = .seeking ∧
      ((seekingAt 10 5000).dev.port .p1).since + 5000 ≤ (seekingAt 10 5000).dev.now ∧
      ((seekingAt 10 5000).dev.port .p1).window < 11 ∧ 11 ≤ ((seekingAt 11 5000).dev.port .p1).window ∧
      (seekingAt 11 4999).dev.now < ((seekingAt 11 4999).dev.port .p1).since + 5000 ∧
      ((atTime (withPort1 (inMode .standby) fun q => { q with state := .resetting }) 1000).dev.port .p1).state =
        .resetting := by decide +kernel

/-- A header of the handset's ports. -/
def header : FrameHeader :=
  { counter := 5, exposure := 2000, settled := true, width := 4000, height := 3000, lanes := .four, checkOk := true,
    straddles := false }

theorem witness_SeekingHeaderLinksThePort :
    ((seekingAt 3 0).dev.port .p1).state = .seeking ∧ ((seekingAt 0 0).dev.port .p1).state = .seeking ∧
      ((seekingAt 0 0).dev.port .p1).window = 0 ∧ { header with straddles := true }.straddles = true ∧
      (if header.straddles then 3 + 1 = ((seekingAt 3 0).dev.port .p1).window
        else 3 = ((seekingAt 3 0).dev.port .p1).window) ∧
      (if { header with straddles := true }.straddles then 3 + 1 = ((seekingAt 4 0).dev.port .p1).window
        else 3 = ((seekingAt 4 0).dev.port .p1).window) := by decide +kernel

/-- An expectation of period 1. -/
def expected : Expectation := { period := 1, issue := 33433, deadline := 58333 }

theorem witness_FsyncsAndDeadlinesAreTimed :
    (streaming.dev.port .p1).config = linkedPort.config ∧ (streaming.dev.port .p1).state = .linked ∧
      (portOff.dev.port .p1).state ≠ .linked ∧ (portOff.dev.port .p1).state ≠ .stalled ∧
      ((withPort1 streaming fun q => { q with pendingFsync := some expected }).dev.port .p1).pendingFsync =
        some expected ∧
      expected.issue ≤ (atTime streaming 33433).dev.now ∧ (atTime streaming 33432).dev.now < expected.issue ∧
      ((withPort1 streaming fun q => { q with expectations := [expected] }).dev.port .p1).expectations =
        expected :: [] ∧
      expected.deadline ≤ (atTime streaming 58333).dev.now ∧ (atTime streaming 58332).dev.now < expected.deadline := by
  decide +kernel

/-- A hand-off context with DEST port 2. -/
def toPort2 : HandoffContext :=
  { dest := .p2, direction := .up, prepared := 0, elapsed := 0, deferral := 0, residual := none, step := 0 }

/-- The handset streaming with a hand-off from port 1 to port 2 in a state. -/
def handingOff (st : HandoffState) (c : HandoffContext) : State :=
  planned streaming fun p =>
    { p with state := some st, context := some c, roles := p.roles.set .p2 .dest, nominal := 325, applied := 325 }

/-- The handset streaming with READY slots of ports 1 and 2. -/
def stored : State :=
  streaming.onDevice fun d =>
    ((d.onSlot 0 fun s => { s with state := .ready, owner := some .p1, period := some 1, centre := some 38433 }).onSlot 1 fun s =>
      { s with state := .held, owner := some .p1, period := some 2, centre := some 71766, useCount := 1 }).onSlot 2 fun s =>
        { s with state := .ready, owner := some .p2, period := some 1, centre := some 38433 }

/-- The handset with a pair stored, handing off to port 2 in PROBE. -/
def probeReady : State := stored.onDevice fun d => { d with planner := (handingOff .probe toPort2).dev.planner }

/-- The start check: with a pair, without one, under a hold, and on both sides of the motion limit. -/
theorem witness_OutcomesInHealthAndPrepare_start :
    let d := probeReady.dev
    let moving := fun q => ({ d with motion := [{ ex := 0, ey := 0, q := q, stamp := 0 }] } : Device)
    d.planner.state = some .probe ∧ d.planner.context = some toPort2 ∧ d.role .p1 = .active ∧ d.probe = none ∧
      d.planner.hold = 0 ∧ ((d.pairQuery .p1 .p2).map fun x => (x.1.id, x.2.id, x.1.period, x.1.centre)) =
        some (0, 2, some 1, some 38433) ∧
      (handingOff .probe toPort2).dev.pairQuery .p1 .p2 = none ∧
      ((moving 20000).motion.getLast?.map MotionSample.q).getD 0 ≤ d.ctl.handoff.motionLimit ∧
      d.ctl.handoff.motionLimit < ((moving 20001).motion.getLast?.map MotionSample.q).getD 0 ∧
      ((d.probeCheck 325).probe.map fun c => (c.activeSlot, c.destSlot, c.period, c.start)) = some (0, 2, 1, 0) ∧
      (moving 20001).probeCheck 325 = moving 20001 := by decide +kernel

theorem witness_OutcomesInHealthAndPrepare_one_active : ∀ n, probeReady.dev.role n = .active → n = .p1 :=
  fun n h => by cases n <;> revert h <;> decide +kernel

theorem witness_OutcomesInHealthAndPrepare :
    (handingOff .prepare toPort2).dev.planner.state = some .prepare ∧
      (handingOff .prepare toPort2).dev.planner.context = some toPort2 ∧ toPort2.dest = .p2 ∧
      (handingOff .prepare toPort2).dev.mode = .streaming ∧ toPort2.prepared + 1 < 2 ∧
      2 ≤ { toPort2 with prepared := 1 }.prepared + 1 := by decide +kernel

/-- The outcomes that R62 leaves aside: another port's, another state's, and another mode's. -/
theorem witness_OutcomesInHealthAndPrepare_left :
    toPort2.dest ≠ .p1 ∧ streaming.dev.planner.state ≠ some .prepare ∧
      ((handingOff .prepare toPort2).onDevice fun d => d.onCtl fun c => { c with mode := .stopping }).dev.mode ≠
        .streaming := by decide +kernel

/-- The handset streaming with a frame of port 1 being filled. -/
def filling : State :=
  (withPort1 streaming fun q => { q with filling := some { slot := 0, start := 0, lines := 0 } }).onDevice fun d =>
    d.onSlot 0 fun s => { s with state := .filling, owner := some .p1, period := some 1, centre := some 1 }

theorem witness_FrameStartMeetsTheHeadRecord :
    (filling.dev.port .p1).filling = some { slot := 0, start := 0, lines := 0 } ∧
      (filling.dev.port .p1).state = .linked ∧ filling.dev.mode = .streaming ∧
      (streaming.dev.port .p1).filling = none ∧ (portOff.dev.port .p1).state = .off ∧
      (inMode .standby).dev.mode ≠ .streaming ∧ (streaming.dev.port .p1).expectations = [] ∧
      (streaming.dev.port .p1).fsyncIssued = false ∧
      (withPort1 streaming fun q => { q with fsyncIssued := true, lastPulse := some 0 }).dev.awaitsNothing .p1 = false ∧
      header.checkOk = true ∧ (streaming.dev.port .p1).lanes = some header.lanes ∧
      (header.width, header.height) = streaming.dev.frameSize .p1 ∧
      streaming.dev.ownedCount .p1 < streaming.dev.quota .p1 ∧ streaming.dev.lowestFree = some (Slot.freed 0) := by
  decide +kernel

/-- The two forms in which a port awaits nothing, and the boundary where it does: a pulse before T_0 and one at T_0. -/
theorem witness_FrameStartMeetsTheHeadRecord_waits :
    let later := atTime (streaming.onDevice fun d =>
      d.onCtl fun c => { c with session := some { start := 900, current := 0, nextPlan := 1 } }) 1000
    let pulsed := fun t : Nat => (withPort1 later fun q => { q with fsyncIssued := true, lastPulse := some t }).dev
    (streaming.dev.port .p1).fsyncIssued = false ∧ (later.dev.ctl.session.map Session.current).getD 0 = 0 ∧
      (∀ t, some 899 = some t → t < (pulsed 899).sessionStart) ∧ ¬ 900 < (pulsed 900).sessionStart ∧
      ((pulsed 899).port .p1).lastPulse = some 899 ∧ (pulsed 899).awaitsNothing .p1 = true ∧
      (pulsed 900).awaitsNothing .p1 = false :=
  ⟨by decide +kernel, by decide +kernel, fun t h => by cases h; decide +kernel, by decide +kernel, by decide +kernel,
    by decide +kernel, by decide +kernel⟩

theorem witness_PixelLinesAreStored :
    let f : Fill := { slot := 0, start := 0, lines := 0 }
    (streaming.dev.port .p1).filling = none ∧ (filling.dev.port .p1).filling = some f ∧
      (filling.dev.frameSize .p1).2 ≤ { f with lines := 3000 }.lines ∧ f.lines < (filling.dev.frameSize .p1).2 ∧
      filling.dev.frameInMemory 0 .p1 = true ∧ filling.dev.frameInMemory 14 .p1 = false ∧ filling.mem.wf = true ∧
      (filling.dev.frameSize .p1).2 % 2 = 0 ∧
      (List.replicate 4000 (7 : Byte)).length = (filling.dev.frameSize .p1).1 := by decide +kernel

/-- Log 18: of a line longer than the frame's width the rest is not stored, a shorter one leaves the rest of its row. -/
theorem test_lines_of_another_length :
    let small := withPort1 filling fun q => { q with config := q.config.map fun c => { c with width := 4, height := 2 } }
    let row := fun (y : List Byte) => match exec (.pixelLine .p1 y [] [] true) small with
      | .next t => (List.range 6).map fun i => (Memory.read t.mem (slotBase 0 + i)).toNat
      | .fault _ => []
      | .refused _ => []
    row [1, 2, 3, 4, 5, 6] = [1, 2, 3, 4, 0, 0] ∧ row [1, 2] = [1, 2, 0, 0, 0, 0] := by decide +kernel

theorem witness_FramesEndGoodOrFaulted :
    let f : Fill := { slot := 0, start := 0, lines := 0 }
    (streaming.dev.port .p1).filling = none ∧ (filling.dev.port .p1).filling = some f ∧
      ((filling.dev.slot? f.slot).bind Slot.period) = some 1 ∧ f.lines < (filling.dev.frameSize .p1).2 ∧
      (filling.dev.frameSize .p1).2 ≤ { f with lines := 3000 }.lines ∧ (filling.dev.port .p1).config ≠ none := by
  decide +kernel

/-- The last line taken; the second good frame of a STALLED port, and a frame of a COLD one. -/
def filled : State := withPort1 filling fun q => { q with filling := some { slot := 0, start := 0, lines := 3000 } }

theorem witness_FramesEndGoodOrFaulted_good :
    let f : Fill := { slot := 0, start := 0, lines := 3000 }
    let recovering := withPort1 filled fun q => { q with state := .stalled, goodRun := 1, badPeriods := 3, stallAge := 7 }
    let cold := planned filled fun p => { p with roles := p.roles.set .p1 .cold }
    (filled.dev.port .p1).filling = some f ∧ (filled.dev.slot? f.slot).bind Slot.period = some 1 ∧
      (filled.dev.frameSize .p1).2 ≤ f.lines ∧ f.start + 2 * setup.readout ≤ (atTime filled 20000).dev.now ∧
      ¬ f.start + 2 * setup.readout ≤ (atTime filled 19999).dev.now ∧
      ((after (exec (.frameEnd .p1) filled)).bind fun d => (d.slot? 0).map Slot.state) = some .ready ∧
      ((after (exec (.frameEnd .p1) recovering)).map fun d => ((d.port .p1).state, (d.port .p1).stallAge)) =
        some (.linked, 0) ∧
      ((after (exec (.frameEnd .p1) cold)).bind fun d => (d.slot? 0).map Slot.state) = some .free := by decide +kernel

theorem witness_PairingFindsTheFrame :
    (stored.dev.slots.filter Slot.complete).map (fun x => (x.id, x.owner, x.period)) =
      [(0, some .p1, some 1), (1, some .p1, some 2), (2, some .p2, some 1)] ∧
      (stored.dev.pair .p1 2).isSome = true ∧ (stored.dev.pair .p2 2).isSome = true ∧ stored.dev.pair .p2 0 = none ∧
      (stored.dev.pairQuery .p1 .p2).isSome = true ∧ stored.dev.pairQuery .p1 .p0 = none := by decide +kernel

theorem witness_PairingFindsTheFrame_unique (q : PortId) (j : Nat) :
    ∀ x ∈ stored.dev.slots, ∀ y ∈ stored.dev.slots,
      (x.owner = some q ∧ (x.state = .ready ∨ x.state = .held) ∧ x.period = some j) →
      (y.owner = some q ∧ (y.state = .ready ∨ y.state = .held) ∧ y.period = some j) → x = y := by
  have pairs : ∀ x ∈ stored.dev.slots, ∀ y ∈ stored.dev.slots, x.complete = true → y.complete = true →
      x.owner = y.owner → x.period = y.period → x = y := by decide +kernel
  intro x hx y hy h h'
  refine pairs x hx y hy ?_ ?_ (h.1.trans h'.1.symm) (h.2.2.trans h'.2.2.symm)
  · simpa [Slot.complete] using h.2.1
  · simpa [Slot.complete] using h'.2.1

theorem witness_SlotsAreAllocatedHeldAndReleased :
    stored.dev.slots.map Slot.id = List.range 12 ∧ stored.dev.lowestFree = some (Slot.freed 3) ∧
      stored.dev.ownedCount .p1 < stored.dev.quota .p1 ∧ State.reset.dev.quota .p1 ≤ State.reset.dev.ownedCount .p1 ∧
      (∃ x ∈ stored.dev.slots, x.state = .held ∧ x.owner = some .p1 ∧ x.useCount ≤ 1) ∧ stored.dev.mode ≠ .stopping ∧
      stored.dev.role .p1 ≠ .cold ∧ (stored.dev.port .p1).hasLink = true ∧ (portOff.dev.port .p1).hasLink = false := by
  decide +kernel

/-- A loss of the DEST, of the ACTIVE port in a hand-off, and of the ACTIVE port in STEADY. -/
theorem witness_LossReportsEndHandoffs :
    (handingOff .prepare toPort2).dev.mode = .streaming ∧ (handingOff .prepare toPort2).dev.role .p2 = .dest ∧
      (handingOff .prepare toPort2).dev.role .p1 = .active ∧
      ((withPort1 streaming fun q => { q with state := .stalled }).dev.port .p1).state = .stalled ∧
      ((withPort1 streaming fun q => { q with state := .off }).dev.port .p1).hasLink = false ∧
      (handingOff .prepare toPort2).dev.planner.context = some toPort2 ∧ toPort2.dest ≠ .p1 ∧
      streaming.dev.planner.context = none ∧ streaming.dev.planner.state = some .steady ∧
      (inMode .standby).dev.mode ≠ .streaming ∧ streaming.dev.role .p2 ≠ .active ∧ streaming.dev.role .p2 ≠ .dest ∧
      LossReport.down .portReset ≠ .stalled ∧ (streaming.dev.reportLoss .p2 (.down .portReset)).role .p2 = .cold ∧
      streaming.dev.reportLoss .p2 .stalled = streaming.dev := by decide +kernel

theorem witness_LossReportsEndHandoffs_one_active :
    ∀ n, (handingOff .prepare toPort2).dev.role n = .active → n = .p1 :=
  fun n h => by cases n <;> revert h <;> decide +kernel

theorem witness_BlendScheduleIsTheRules :
    1 ≤ 16 ∧ 16 ≤ 16 ∧ 1 ≤ 6 ∧ blendWeight 16 16 = 240 ∧ blendWeight 1 1 = 128 ∧ residualStep 6 6 0 = 0 ∧
      streaming.dev.ctl.handoff.blendLength = 6 ∧ { toPort2 with step := 6 }.step = 6 := by decide +kernel

theorem witness_StreamStartBeginsTheSession :
    (inMode .standby).dev.ctl.resetLow = false ∧ (inMode .standby).dev.mode = .standby ∧
      (inMode .standby).dev.ctl.output.size ≠ none ∧ (inMode .standby).dev.preferredCandidate = some .p0 ∧
      (inMode .standby).dev.planner.ramp = none ∧ (inMode .standby).dev.planner.queue = [] ∧
      ((inMode .standby).onDevice fun d => { d with cal := PerPort.all Calibration.initial }).dev.preferredCandidate =
        none ∧
      State.reset.dev.ctl.output.size = none := by decide +kernel

theorem witness_StreamStartBeginsTheSession_ports : ∀ m, ((inMode .standby).dev.port m).state ≠ .stalled :=
  fun m => by cases m <;> decide +kernel

theorem witness_StreamStopDrains :
    streaming.dev.ctl.resetLow = false ∧ streaming.dev.mode = .streaming ∧ streaming.dev.composing = none ∧
      streaming.dev.link.sending = none ∧ streaming.dev.link.pending = none := by decide +kernel

/-- A hand-off, a fence and a SKIPPED pending record at the stop; and an emission that keeps it STOPPING. -/
theorem witness_StreamStopDrains_busy :
    let plan : ViewPlan :=
      { period := 1, nominal := 104, applied := 104, zoomHeld := false, requestId := none, state := .steady,
        active := some .p1, blend := none, syncSet := [.p1], captureMark := false }
    let s := (handingOff .prepare toPort2).onDevice fun d =>
      { d with link := { d.link with
          fence := some 0
          pending := some { period := 1, plan := plan, outcome := .skipped .noFrame }
          sending := some { period := 0, kind := .grey, buffer := none } } }
    s.dev.ctl.resetLow = false ∧ s.dev.mode = .streaming ∧ s.dev.planner.context = some toPort2 ∧
      s.dev.link.fence = some 0 ∧ s.dev.link.sending ≠ none ∧
      s.dev.link.pending = some { period := 1, plan := plan, outcome := .skipped .noFrame } ∧
      ((after (exec (.streamStop .a) s)).map fun d => (d.mode, d.link.pending, d.role .p2, d.planner.state)) =
        some (.stopping, none, .warm, some .steady) := by decide +kernel

/-- The handset streaming at T_1. -/
def atT1 : State := atTime streaming 33333

theorem witness_EvaluationOfAPlanning :
    streaming.dev.role .p1 = .active ∧ streaming.dev.planner.state = some .steady ∧
      (streaming.dev.port .p1).state = .linked ∧ streaming.dev.planner.hold = 0 ∧ streaming.dev.planner.guard = 0 ∧
      streaming.dev.isCandidate .p2 = true ∧ (streaming.dev.calOf .p1).base < (streaming.dev.calOf .p2).base ∧
      streaming.dev.upOf .p2 ≤ 325 ∧ 106 < streaming.dev.downOf .p1 ∧
      (handingOff .prepare toPort2).dev.planner.context = some toPort2 ∧ 324 < streaming.dev.upOf .p2 ∧
      toPort2.elapsed + 1 < streaming.dev.ctl.handoff.prepareLimit ∧
      (planned streaming fun p => { p with state := some .noSource }).dev.preferredCandidate = some .p0 := by
  decide +kernel

/-- Table 5-4, row 5: the probe of Table 5-7 in flight at T_1, its completion waiting behind the period start, the deferral
count given. -/
def meeting (n : Nat) : State :=
  { atTime ((handingOff .probe { toPort2 with deferral := n }).onDevice fun d =>
      { d with
        probe := some
          { activePort := .p1, destPort := .p2, activeSlot := 1, destSlot := 2, period := 1, zoom := 325, ex := 0, ey := 0,
            start := 0 } }) 33333 with
    pending := [.probeComplete] }

/-- With a probe in flight: no completion waits; a hold; a deferral; the skip. -/
theorem witness_EvaluationOfAPlanning_met :
    let d := fun n => (meeting n).dev
    (d 0).planner.state = some .probe ∧ (d 0).probe ≠ none ∧ ¬ (d 0).planner.nominal < (d 0).upOf .p2 ∧
      ((d 0).probeCheck 325).probe ≠ none ∧ (d 0).planner.hold = 0 ∧
      0 < (planned (meeting 0) fun p => { p with hold := 1 }).dev.planner.hold ∧
      13 + 1 < (d 13).ctl.handoff.deferralLimit ∧ (d 14).ctl.handoff.deferralLimit ≤ 14 + 1 ∧
      1 ≤ (d 14).ctl.handoff.blendLength := by decide +kernel

/-- The STALLED ACTIVE port with and without a fallback; a start, a hold, a deferral and a skip in PROBE; the last step of
BLEND; the last planning of PREPARE. -/
theorem witness_EvaluationOfAPlanning_clauses :
    let stalled := (withPort1 streaming fun q => { q with state := .stalled }).dev
    let alone := ({ stalled with ports := PerPort.all { linkedPort with state := .stalled } } : Device)
    let probing := fun n : Nat => (handingOff .probe { toPort2 with deferral := n }).dev
    stalled.planner.state = some .steady ∧ (stalled.port .p1).state = .stalled ∧ stalled.fallbackChoice = some .p0 ∧
      alone.fallbackChoice = none ∧ (probeReady.dev.probeCheck 325).probe ≠ none ∧
      ¬ 325 < probeReady.dev.upOf .p2 ∧ ((probing 13).probeCheck 325).probe = none ∧ (probing 13).planner.hold = 0 ∧
      13 + 1 < (probing 13).ctl.handoff.deferralLimit ∧ (probing 14).ctl.handoff.deferralLimit ≤ 14 + 1 ∧
      0 < (planned (handingOff .probe toPort2) fun p => { p with hold := 1 }).dev.planner.hold ∧
      (handingOff .blend { toPort2 with step := 5 }).dev.planner.state = some .blend ∧
      5 < streaming.dev.ctl.handoff.blendLength ∧ streaming.dev.ctl.handoff.blendLength ≤ 6 ∧
      1 ≤ streaming.dev.ctl.handoff.blendLength ∧ streaming.dev.ctl.handoff.prepareLimit ≤ 11 + 1 := by decide +kernel

theorem witness_EvaluationOfAPlanning_one_active : ∀ n, streaming.dev.role n = .active → n = .p1 :=
  fun n h => by cases n <;> revert h <;> decide +kernel

/-- The period start is due at T_1 and not before. -/
theorem witness_PeriodStartWritesPlan :
    atT1.dev.PeriodDue ∧ atT1.dev.ctl.session.map Session.nextPlan = some 1 ∧ ¬ (atTime streaming 33332).dev.PeriodDue := by
  refine ⟨⟨by decide +kernel, _, rfl, by decide +kernel, by decide +kernel⟩, by decide +kernel, ?_⟩
  rintro ⟨-, x, h, hx, -⟩
  obtain rfl : x = { start := 0, current := 0, nextPlan := 1 } := by
    simpa [atTime, streaming, State.onDevice, Device.onCtl] using h.symm
  revert hx
  decide +kernel

theorem witness_PeriodStartWritesPlan_ports : ∀ m, (atT1.dev.port m).state ≠ .stalled :=
  fun m => by cases m <;> decide +kernel

/-- A port of the sync set with a link, one without, one STALLED short of the dead limit and at it; BLEND at a planning. -/
theorem witness_PeriodStartWritesPlan_clauses :
    let stalled := fun age : Nat => atT1.onDevice fun d => d.onPort .p2 fun q => { q with state := .stalled, stallAge := age }
    (atT1.dev.port .p1).config = some setup ∧ (atT1.dev.port .p1).state = .linked ∧
      ((after (exec .periodStart atT1)).map fun d => (d.planner.plans.map ViewPlan.syncSet, (d.port .p2).pendingFsync)) =
        some ([[.p0, .p1]], none) ∧
      ((after (exec .periodStart (stalled 43))).map fun d => ((d.port .p2).state, (d.port .p2).stallAge)) =
        some (.stalled, 44) ∧
      ((after (exec .periodStart (stalled 44))).map fun d => (d.port .p2).state) = some .resetting ∧
      ((after (exec .periodStart (atTime (handingOff .blend { toPort2 with step := 5 }) 33333))).map fun d =>
        d.planner.plans.map fun v => (v.state, v.blend.map BlendStep.step)) = some [(.blend, some 6)] := by decide +kernel

/-- Each outcome of a planning comes at T_1 of some state. -/
theorem witness_PlanningRowsHaveTheirOutcomes :
    let late := { toPort2 with elapsed := 11, deferral := 14, step := 6 }
    (planned atT1 fun p => { p with hold := 1 }).dev.planner.hold = 1 ∧
      (planned atT1 fun p => { p with guard := 1 }).dev.planner.guard = 1 ∧
      (planned atT1 fun p => { p with bars := p.bars.set .p3 1 }).dev.planner.bars.get .p3 = 1 ∧
      (planned atT1 fun p =>
        { p with ramp := some { id := 1, start := 100, target := 200, length := 2, step := 1 } }).dev.planner.rampStep.2.2 =
          true ∧
      (atTime (handingOff .prepare late) 33333).dev.prepareTimesOut = true ∧
      (atTime (handingOff .probe late) 33333).dev.probeSkips false = true ∧
      (atTime (handingOff .blend late) 33333).dev.blendCommits = true ∧
      1 ≤ atT1.dev.ctl.handoff.blendLength := by decide +kernel

/-- Table 5-4, row 5, second order: the period start first, at the deferral limit, makes the skip with the probe in flight,
and the completion that then comes is not taken; short of the limit it raises the deferral count; and with no completion
waiting the planning leaves the count (4.13.1). -/
theorem test_skip_meets_a_completion :
    (meeting 14).dev.probeSkips (meeting 14).completionWaits = true ∧
      ((after (exec .periodStart (meeting 14))).map fun d =>
        (d.planner.state, d.planner.context.map fun c => (c.step, c.residual), d.probe.map d.takesProbe)) =
          some (some .blend, some (1, some Residual.skip), some false) ∧
      ((after (exec .periodStart (meeting 13))).map fun d =>
        (d.planner.state, d.planner.context.map HandoffContext.deferral)) = some (some .probe, some 14) ∧
      ((after (exec .periodStart { meeting 14 with pending := [] })).map fun d =>
        (d.planner.state, d.planner.context.map HandoffContext.deferral)) = some (some .probe, some 14) := by
  decide +kernel

theorem witness_PlanningRowsHaveTheirOutcomes_met :
    (meeting 14).dev.planner.context = some { toPort2 with deferral := 14 } ∧
      ∃ t u, exec .periodStart (meeting 14) = .next t ∧ exec .probeComplete t = .next u :=
  ⟨rfl, _, _, rfl, rfl⟩

/-- The ACTIVE port STALLED in STEADY at T_1, far from the dead limit. -/
def stalledAtT1 : State := withPort1 atT1 fun q => { q with state := .stalled, stallAge := 3 }

/-- R61: the fallback at a period start; no port resets. -/
theorem witness_PlanningRowsHaveTheirOutcomes_fallback :
    stalledAtT1.dev.planner.state = some .steady ∧ stalledAtT1.dev.role .p1 = .active ∧
      (stalledAtT1.dev.port .p1).state = .stalled ∧ stalledAtT1.dev.beforeEvaluation.fallbackChoice = some .p0 ∧
      (stalledAtT1.dev.port .p1).stallAge + 1 ≠ stalledAtT1.dev.ctl.handoff.deadLimit ∧
      stalledAtT1.dev.events = EventUnit.initial ∧
      ((after (exec .periodStart stalledAtT1)).map fun d => (d.role .p0, d.role .p1, (d.port .p1).stallAge)) =
        some (.active, .warm, 4) := by decide +kernel

theorem witness_PlanningRowsHaveTheirOutcomes_fallback_roles : stalledAtT1.dev.RolesCoherent := by
  refine ⟨fun m n => ?_, fun m => ?_, fun _ => ?_, fun _ m => ?_, fun _ m => ?_⟩
  · cases m <;> cases n <;> decide +kernel
  · cases m <;> decide +kernel
  · exact ⟨fun _ => by decide +kernel, fun _ => ⟨.p1, by decide +kernel⟩⟩
  · cases m <;> decide +kernel
  · cases m <;> decide +kernel

/-- A hold that ends with HOLD_EXPIRED pending already and not: one more with the detail kept, and 1 with period 1. -/
theorem test_hold_expired_counts :
    let ending := planned atT1 fun p => { p with hold := 1 }
    let told := ending.onDevice fun d => d.raise .holdExpired (EventDetail.ofPeriod (some 0) none)
    let record := fun s : State => (after (exec .periodStart s)).bind fun d =>
      (d.events.a.records.find? fun r => r.kind = .holdExpired).map fun r => (r.count, r.detail.bind EventDetail.period)
    record ending = some (1, some 1) ∧ record told = some (2, some 0) := by decide +kernel

/-- The states of the witness above meet the conditions of the second clause, and their planning answers a next state. -/
theorem witness_PlanningRowsHaveTheirOutcomes_roles :
    (atTime (handingOff .blend { toPort2 with step := 6 }) 33333).dev.RolesCoherent := by
  refine ⟨fun m n => ?_, fun m => ?_, fun _ => ?_, fun _ m => ?_, fun _ m => ?_⟩
  · cases m <;> cases n <;> decide +kernel
  · cases m <;> decide +kernel
  · exact ⟨fun _ => by decide +kernel, fun _ => ⟨.p1, by decide +kernel⟩⟩
  · cases m <;> decide +kernel
  · cases m <;> decide +kernel

theorem witness_PlanningRowsHaveTheirOutcomes_met_roles : (meeting 14).dev.RolesCoherent := by
  refine ⟨fun m n => ?_, fun m => ?_, fun _ => ?_, fun _ m => ?_, fun _ m => ?_⟩
  · cases m <;> cases n <;> decide +kernel
  · cases m <;> decide +kernel
  · exact ⟨fun _ => by decide +kernel, fun _ => ⟨.p1, by decide +kernel⟩⟩
  · cases m <;> decide +kernel
  · cases m <;> decide +kernel

theorem witness_PlanningRowsHaveTheirOutcomes_next :
    (atTime (handingOff .blend { toPort2 with step := 6 }) 33333).dev.events = EventUnit.initial ∧
      ∃ t, exec .periodStart (atTime (handingOff .blend { toPort2 with step := 6 }) 33333) = .next t :=
  ⟨rfl, _, rfl⟩

/-- Port 2 STALLED, one period start short of the dead limit. -/
def nearlyDead : State :=
  (atT1).onDevice fun d => d.onPort .p2 fun q => { q with state := .stalled, stallAge := 44, badPeriods := 15 }

theorem witness_AutomaticResetAtTheDeadLimit :
    nearlyDead.dev.PeriodDue ∧ (nearlyDead.dev.port .p2).state = .stalled ∧
      (nearlyDead.dev.port .p2).allowance = .available ∧
      (nearlyDead.dev.port .p2).stallAge + 1 = nearlyDead.dev.ctl.handoff.deadLimit ∧
      (nearlyDead.dev.port .p2).config = linkedPort.config ∧ (atT1.dev.port .p2).state ≠ .stalled :=
  ⟨⟨by decide +kernel, _, rfl, by decide +kernel, by decide +kernel⟩, by decide +kernel⟩

/-- The same with port 2 the DEST of a hand-off in PREPARE. -/
def nearlyDeadDest : State := nearlyDead.onDevice fun d => { d with planner := (handingOff .prepare toPort2).dev.planner }

/-- R122, R70: the automatic reset of the DEST port aborts the hand-off, with the period now begun. -/
theorem test_auto_reset_aborts :
    ((after (exec (.autoReset .p2) nearlyDeadDest)).map fun d => (d.role .p2, d.planner.state, d.planner.bars.get .p2)) =
        some (.cold, some .steady, 60) ∧
      ((after (exec (.autoReset .p2) nearlyDeadDest)).bind fun d =>
        d.events.fault.captured.map fun f => (f.kind, f.period)) = some (.handoffAborted, some 1) := by decide +kernel

/-- R122, the planning first: the row PERIOD_START plans with port 2 STALLED, and the DOWN report follows. -/
theorem test_period_start_resets_after_the_planning :
    ((after (exec .periodStart nearlyDeadDest)).map fun d =>
        ((d.port .p2).state, d.role .p2, d.planner.plans.map ViewPlan.state)) =
      some (.resetting, .cold, [.prepare]) := by decide +kernel

theorem witness_AutomaticResetAtTheDeadLimit_roles : nearlyDead.dev.RolesCoherent := by
  refine ⟨fun m n => ?_, fun m => ?_, fun _ => ?_, fun _ m => ?_, fun _ m => ?_⟩
  · cases m <;> cases n <;> decide +kernel
  · cases m <;> decide +kernel
  · exact ⟨fun _ => by decide +kernel, fun _ => ⟨.p1, by decide +kernel⟩⟩
  · cases m <;> decide +kernel
  · cases m <;> decide +kernel

/-- All costs equal: the offset nearest (0, 0) is chosen. -/
theorem witness_ProbeChoosesTheLeastCost :
    chosenOffset (fun _ => 3) = (3, 0, 0) ∧ (-16 ≤ (16 : Int) ∧ (16 : Int) ≤ 16 ∧ (16 : Int) % 2 = 0) ∧
      ((16, -16) : Int × Int) ≠ (chosenOffset fun _ => 3).2 := by decide +kernel

/-- The probe of Table 5-7 in flight. -/
def probing : State :=
  (handingOff .probe toPort2).onDevice fun d =>
    { d with
      probe := some
        { activePort := .p1, destPort := .p2, activeSlot := 1, destSlot := 2, period := 1, zoom := 325, ex := 0, ey := 0,
          start := 0 } }

theorem witness_ProbeCompletes :
    streaming.dev.probe = none ∧ (probing.dev.probe.map probing.dev.probeInMemory) = some true ∧
      probing.dev.planner.state = some .probe ∧ probing.dev.planner.context = some toPort2 ∧
      probing.dev.probe.map ProbeContext.destPort = some toPort2.dest ∧ probing.dev.mode = .streaming ∧
      (probing.dev.probe.map fun c => probing.dev.probeInMemory { c with destSlot := 99 }) = some false := by
  decide +kernel

/-- Memory with nothing listed renders to a patch of zeros, its greatest and least sample 0. -/
theorem witness_ProbeCompletes_contrast (slot : Nat) (size : Nat × Nat) (w : Window) (out : Nat × Nat) (i j : Nat) :
    renderFrame [] slot size w out .y i j = 0 := by
  simp [renderFrame, renderSample, interpolate, Memory.read, unwrittenByte]

/-- Plan 0 of the handset, and the frames of its period. -/
def plan0 : ViewPlan :=
  { period := 1, nominal := 104, applied := 104, zoomHeld := false, requestId := none, state := .steady,
    active := some .p1, blend := none, syncSet := [.p1], captureMark := false }

/-- The handset with plan 1 and port 1's frame of period 1, at a time. -/
def composingAt (t : Nat) : State := atTime (planned stored fun p => { p with plans := [plan0] }) t

/-- C_1 = T_3 − G. -/
theorem witness_ComposeDeadlineTakesThePlan :
    (composingAt 95998).dev.composeDue = none ∧ (composingAt 95999).dev.planner.plans = plan0 :: [] ∧
      (composingAt 95999).dev.mode = .streaming ∧ (composingAt 95999).dev.link.pending = none ∧
      (composingAt 95999).dev.sessionStart + (1 + 2) * 33333 - 4000 ≤ (composingAt 95999).dev.now ∧
      (composingAt 95999).dev.composing = none ∧ ((composingAt 95999).dev.select plan0).isSome = true ∧
      (composingAt 95999).dev.bufferIn .free = some (OutputBuffer.freed 0) ∧ (atT1).dev.select plan0 = none ∧
      (stored.dev.pair .p1 1).isSome = true ∧ (stored.dev.pair .p2 1).isSome = true ∧
      stored.dev.pair .p0 1 = none := by decide +kernel

/-- The composition that starts there. -/
def composed : State :=
  match exec .composeDeadline (composingAt 95999) with
  | .next t => t
  | .fault _ => State.reset
  | .refused _ => State.reset

theorem witness_CompositionFillsItsBuffer :
    streaming.dev.composing = none ∧ (composed.dev.composing.map composed.dev.compositionInMemory) = some true ∧
      composed.mem.wf = true ∧ ((composed.dev.buffer? 0).bind OutputBuffer.trailer).isSome = true ∧
      composed.dev.composing.map Composition.buffer = some 0 ∧
      (composed.dev.composing.map fun c => composed.dev.compositionInMemory { c with buffer := 9 }) = some false := by
  decide +kernel

/-- The selections of that plan and of a blend, and their capture centre. -/
theorem witness_ComposeDeadlineTakesThePlan_trailer :
    let blend : BlendStep :=
      { dest := .p2, step := 1, alpha := 36, rx := 0, ry := 0, lowConfidence := false, probeSkipped := false }
    let both := stored.dev.select { plan0 with blend := some blend }
    let destOnly := stored.dev.select { plan0 with active := some .p0, blend := some blend }
    ((stored.dev.select plan0).bind Selection.active).bind (fun x => x.1.centre) = some 38433 ∧
      (both.bind Selection.active).isSome = true ∧ (both.bind Selection.dest).isSome = true ∧
      (destOnly.map fun x => (x.active.isSome, x.alpha, x.forced)) = some (false, 256, true) ∧
      (destOnly.bind Selection.dest).bind (fun x => x.1.centre) = some 38433 := by decide +kernel

/-- One window rendered, the other, and both. -/
theorem witness_CompositionFillsItsBuffer_sample :
    let w : Window := { x0 := 0, y0 := 0, w := 64, h := 36 }
    let t := (composed.dev.buffer? 0).bind OutputBuffer.trailer
    composed.dev.composing.map (fun c => (c.activeSlot, c.destSlot)) = some (some 0, none) ∧
      (t.bind Trailer.activeWindow).isSome = true ∧ t.bind Trailer.active = some .p1 ∧
      (t.map fun x => ({ x with dest := some .p2, destWindow := some w } : Trailer).destWindow) = some (some w) ∧
      (composed.dev.composing.map fun c => ({ c with activeSlot := none, destSlot := some 2 } : Composition).destSlot) =
        some (some 2) ∧ 255 ≤ 255 ∧ 256 ≤ 256 := by decide +kernel

/-- The composition complete, at a time. -/
def completeAt (t : Nat) : State :=
  atTime (composed.onDevice fun d =>
    { d.onBuffer 0 fun b => { b with state := .complete } with composing := none }) t

/-- Emission start at T_3, its end at T_4 − 500; a fence taken there. -/
theorem witness_EmissionsAndTheFence :
    (streaming.dev.link.fence = none ∧ streaming.dev.ctl.session = some { start := 0, current := 0, nextPlan := 0 + 1 }) ∧
      ((completeAt 99999).dev.link.pending.map PendingRecord.period = some 1 ∧
        (completeAt 99999).dev.mode = .streaming ∧ (completeAt 99999).dev.link.sending = none ∧
        (0 + (1 + 2) * 33333 ≤ (completeAt 99999).dev.now) ∧ ((completeAt 99998).dev.now < 0 + (1 + 2) * 33333) ∧
        ((completeAt 99999).dev.buffer? 0).map OutputBuffer.state = some .complete ∧
        (composed.dev.buffer? 0).map OutputBuffer.state ≠ some .complete ∧ composed.dev.bufferIn .last = none) ∧
      ((after (exec .emissionStart (completeAt 99999))).bind fun d => d.link.sending).map SendingRecord.kind =
        some .fresh := by decide +kernel

theorem witness_TrailerLineLayout :
    ((after (exec .emissionStart (completeAt 99999))).bind fun d => d.link.lastTrailer).map
        (fun t => t.bytes.length) = some 53 ∧
      ((after (exec .emissionStart (completeAt 99999))).bind Device.trailerLine).map List.length = some 3840 ∧
      ((after (exec .emissionStart (completeAt 99999))).bind fun d => d.link.sending).isSome = true ∧
      53 ≤ streaming.dev.outputSize.1 := by decide +kernel

theorem witness_EventCommandsActOnOnePort :
    State.reset.dev.ctl.resetLow = false ∧ State.reset.dev.mode ≠ .waking ∧ State.reset.dev.mode ≠ .resetting ∧
      1 ≤ (List.replicate 21 (20 : Byte)).length ∧ (List.replicate 21 (20 : Byte)).length ≤ 21 ∧
      (∀ k ∈ List.replicate 21 (20 : Byte), k.toNat ≤ 20) ∧ (0x1FFFFF : Word24).toNat < 2 ^ 21 ∧
      ¬ (0x200000 : Word24).toNat < 2 ^ 21 := by decide +kernel

theorem witness_EventsAreRecordedAndCaptured :
    EventKind.zoomDone.isFault = false ∧ EventKind.noSource.isFault = true ∧
      State.reset.dev.events.fault.captured = none ∧
      (State.reset.dev.raise .noSource EventDetail.empty).events.fault.captured ≠ none := by decide +kernel

theorem witness_StepKeepsMemoryCanonical : ∃ t, State.reset.mem.wf = true ∧ step State.reset = .next t :=
  ⟨_, by decide +kernel, rfl⟩

/-- The handset streaming meets every condition of `Sys2Proof/Safety.lean`. -/
theorem witness_StepNeverFaults : streaming.Inv := by
  have events : EventUnit.initial.coherent := by
    refine ⟨⟨by decide +kernel, fun r hr => ?_⟩, ⟨by decide +kernel, fun r hr => ?_⟩, by decide +kernel⟩
    all_goals exact (by decide +kernel : ∀ r ∈ EventSet.initial.records,
      (r.pending = false → r.count = 0 ∧ r.detail = none) ∧ r.count ≤ 255) r hr
  refine ⟨by decide +kernel, events, ⟨by decide +kernel, by decide +kernel, fun m => ?_⟩,
    ⟨by decide +kernel, by decide +kernel, fun m => ?_, by decide +kernel⟩, ⟨by decide +kernel, fun x hx => ?_⟩,
    ⟨fun m c h => ?_, fun size h => ?_, by decide +kernel, by decide +kernel, fun m f h => ?_, fun c h => ?_,
      fun c h => ?_⟩⟩
  · cases m <;> decide +kernel
  · cases m <;> decide +kernel
  · have h := (by decide +kernel : ∀ x ∈ streaming.dev.slots, x = Slot.freed x.id) x hx
    rw [h]
    exact ⟨rfl, rfl, rfl, rfl⟩
  · obtain rfl : c = setup := by cases m <;> exact (Option.some.inj h).symm
    decide
  · obtain rfl : size = (3840, 2160) := (Option.some.inj h).symm
    decide
  · cases m <;> cases h
  · cases h
  · cases h

theorem witness_StepKeepsRecordsCoherent :
    ∃ t, step { streaming with pending := [.getView .a] } = .next t ∧ streaming.dev.ZoomsInRange ∧
      streaming.dev.RingOrdered := by
  refine ⟨_, rfl, ⟨by decide +kernel, by decide +kernel, by decide +kernel, fun r h => ?_, fun m => ?_⟩,
    ⟨by decide +kernel, fun _ => rfl, by decide +kernel, by decide +kernel⟩⟩
  · cases h
  · cases m <;> decide +kernel

/-- The handset with its stored frames, planning 2 run, meets the conditions on frames and buffers. -/
theorem witness_StepKeepsRecordsCoherent_frames :
    let s := stored.onDevice fun d => d.onCtl fun c => { c with session := some { start := 0, current := 2, nextPlan := 3 } }
    s.dev.FramesCoherent ∧ s.dev.BuffersCoherent := by
  refine ⟨⟨⟨by decide +kernel, fun m => by cases m <;> decide +kernel⟩, fun x hx hs => ?_, (fun h => by cases h),
    fun m f h => ?_, by decide +kernel, fun m => ?_, fun h => absurd rfl h⟩,
    ⟨by decide +kernel, by decide +kernel, by decide +kernel, by decide +kernel, (fun r h => by cases h),
      fun r h => by cases h⟩⟩
  · have owned : ∀ x ∈ stored.dev.slots, x.state ≠ .free → x.owner.isSome = true ∧ x.period.getD 3 < 3 := by
      decide +kernel
    obtain ⟨h, hk⟩ := owned x hx hs
    refine ⟨h, ?_⟩
    cases hp : x.period with
    | none => exact absurd (hp ▸ hk) (by decide)
    | some k => exact ⟨k, rfl, show k < 3 by simpa [hp] using hk⟩
  · cases m <;> cases h
  · cases m <;> exact ⟨by decide +kernel, fun e h => by cases h⟩

theorem witness_StepKeepsRolesCoherent :
    ∃ t, streaming.dev.sessionCoherent ∧ streaming.dev.RolesCoherent ∧
      step { streaming with pending := [.getView .a] } = .next t := by
  refine ⟨_, witness_StepNeverFaults.session, ⟨fun m n => ?_, fun m => ?_, fun _ => ?_, fun _ m => ?_, fun _ m => ?_⟩, rfl⟩
  · cases m <;> cases n <;> decide +kernel
  · cases m <;> decide +kernel
  · exact ⟨fun _ => by decide +kernel, fun _ => ⟨.p1, by decide +kernel⟩⟩
  · cases m <;> decide +kernel
  · cases m <;> decide +kernel

end Sys2Proof.Tests
end

section
/-! PROOFS. The preferred port (Chapter 1, R15 to R17): what the best member of a list is, what the two
orders of R16 say, and O19 from them. -/

namespace Sys2Proof.Machine

open Sys2Proof

/-! ### The best member of a list -/

/-- Only the empty list has no best member. -/
theorem bestBy_eq_none_iff {α : Type} {beats : α → α → Bool} {l : List α} : bestBy beats l = none ↔ l = [] := by
  cases l with
  | nil => simp [bestBy]
  | cons x rest =>
    simp only [bestBy, reduceCtorEq, iff_false]
    split
    · exact Option.some_ne_none x
    · split <;> exact Option.some_ne_none _

/-- A list that stands in ascending number and is ranked by a strict weak order: no member beats the best one, which beats
each other member or has a lower number than it. -/
theorem bestBy_spec {α : Type} {beats : α → α → Bool} {number : α → Nat}
    (asymm : ∀ x y, beats x y = true → beats y x = false)
    (between : ∀ x y z, beats x z = true → beats x y = true ∨ beats y z = true)
    {l : List α} (ascending : l.Pairwise fun x y => number x < number y) {m : α} (best : bestBy beats l = some m) :
    m ∈ l ∧ ∀ n ∈ l, n ≠ m → beats n m = false ∧ (beats m n = true ∨ number m < number n) := by
  induction l generalizing m with
  | nil => cases best
  | cons x rest ih =>
    obtain ⟨first, ascending⟩ := List.pairwise_cons.mp ascending
    simp only [bestBy] at best
    split at best
    next empty =>
      obtain rfl : x = m := Option.some.inj best
      obtain rfl : rest = [] := bestBy_eq_none_iff.mp empty
      exact ⟨List.mem_cons_self, fun n hn hne => absurd (List.mem_singleton.mp hn) hne⟩
    next b hb =>
      obtain ⟨mem, least⟩ := ih ascending hb
      split at best
      next wins =>
        obtain rfl : b = m := Option.some.inj best
        refine ⟨List.mem_cons_of_mem _ mem, fun n hn hne => ?_⟩
        obtain rfl | hn := List.mem_cons.mp hn
        · exact ⟨asymm _ _ wins, .inl wins⟩
        · exact least n hn hne
      next loses =>
        obtain rfl : x = m := Option.some.inj best
        refine ⟨List.mem_cons_self, fun n hn hne => ?_⟩
        have hn : n ∈ rest := List.mem_of_ne_of_mem hne hn
        have beaten : beats n b = true → False := fun h => by
          by_cases hnb : n = b
          · subst hnb
            exact Bool.false_ne_true ((asymm _ _ h).symm.trans h)
          · exact Bool.false_ne_true ((least n hn hnb).1.symm.trans h)
        refine ⟨Bool.eq_false_iff.mpr fun h => ?_, .inr (first n hn)⟩
        exact (between n b x h).elim beaten loses

/-! ### Sets of ports -/

theorem PortId.mem_all (m : PortId) : m ∈ PortId.all := by
  cases m <;> decide

@[simp] theorem mem_portsWhere {keep : PortId → Bool} {m : PortId} : m ∈ portsWhere keep ↔ keep m = true := by
  simp [portsWhere, PortId.mem_all]

theorem portsWhere_ascending (keep : PortId → Bool) : (portsWhere keep).Pairwise fun m n => m.toNat < n.toNat :=
  List.Pairwise.filter keep (by decide : PortId.all.Pairwise fun m n => m.toNat < n.toNat)

@[simp] theorem portsWhere_filter (keep also : PortId → Bool) :
    (portsWhere keep).filter also = portsWhere fun m => also m && keep m := by
  simp [portsWhere, List.filter_filter]

theorem portsWhere_eq_nil_iff {keep : PortId → Bool} : portsWhere keep = [] ↔ ∀ n, keep n = false := by
  simp [List.eq_nil_iff_forall_not_mem]

/-- The best port of a set: no port of the set beats it, and it beats each other or has a lower number than it. -/
theorem bestBy_portsWhere {beats : PortId → PortId → Bool}
    (asymm : ∀ x y, beats x y = true → beats y x = false)
    (between : ∀ x y z, beats x z = true → beats x y = true ∨ beats y z = true)
    {keep : PortId → Bool} {m : PortId} (best : bestBy beats (portsWhere keep) = some m) :
    keep m = true ∧ ∀ n, keep n = true → n ≠ m → beats n m = false ∧ (beats m n = true ∨ m.toNat < n.toNat) := by
  obtain ⟨mem, least⟩ := bestBy_spec asymm between (portsWhere_ascending keep) best
  exact ⟨mem_portsWhere.mp mem, fun n hn => least n (mem_portsWhere.mpr hn)⟩

/-! ### Candidates (R15) -/

theorem Device.isFallbackCandidate_iff {d : Device} {m : PortId} :
    d.isFallbackCandidate m = true ↔ (d.port m).state = .linked ∧ (d.calOf m).written = true := by
  simp [Device.isFallbackCandidate]

theorem Device.isCandidate_iff {d : Device} {m : PortId} :
    d.isCandidate m = true ↔
      (d.port m).state = .linked ∧ (d.calOf m).written = true ∧ d.planner.bars.get m = 0 := by
  simp [Device.isCandidate, Device.isFallbackCandidate_iff, and_assoc]

/-! ### The two orders of R16 -/

theorem Device.longerThan_iff {d : Device} {n m : PortId} :
    d.longerThan n m = true ↔ (d.calOf m).base < (d.calOf n).base ∨
      (d.calOf n).base = (d.calOf m).base ∧ (d.calOf n).lower < (d.calOf m).lower := by
  simp [Device.longerThan]

theorem Device.closerThan_iff {d : Device} {n m : PortId} :
    d.closerThan n m = true ↔ (d.calOf n).lower < (d.calOf m).lower ∨
      (d.calOf n).lower = (d.calOf m).lower ∧ (d.calOf m).base < (d.calOf n).base := by
  simp [Device.closerThan]

/-- R16 step 1, R59: the longest port of a set has the largest base zoom, of those the smallest lower bound, of those the
lowest number. -/
theorem Device.longest_portsWhere {d : Device} {keep : PortId → Bool} {m : PortId}
    (h : d.longest (portsWhere keep) = some m) :
    keep m = true ∧ ∀ n, keep n = true → n ≠ m →
      (d.calOf n).base < (d.calOf m).base ∨ (d.calOf n).base = (d.calOf m).base ∧
        ((d.calOf m).lower < (d.calOf n).lower ∨ (d.calOf m).lower = (d.calOf n).lower ∧ m.toNat < n.toNat) := by
  have asymm (x y) : d.longerThan x y = true → d.longerThan y x = false := by
    simp only [← Bool.not_eq_true, Device.longerThan_iff]
    omega
  have between (x y z) : d.longerThan x z = true → d.longerThan x y = true ∨ d.longerThan y z = true := by
    simp only [Device.longerThan_iff]
    omega
  obtain ⟨hm, least⟩ := bestBy_portsWhere asymm between h
  refine ⟨hm, fun n hn hne => ?_⟩
  have := least n hn hne
  simp only [← Bool.not_eq_true, Device.longerThan_iff] at this
  omega

/-- R16 step 2: the closest port of a set has the smallest lower bound, of those the largest base zoom, of those the lowest
number. -/
theorem Device.closest_portsWhere {d : Device} {keep : PortId → Bool} {m : PortId}
    (h : bestBy d.closerThan (portsWhere keep) = some m) :
    keep m = true ∧ ∀ n, keep n = true → n ≠ m →
      (d.calOf m).lower < (d.calOf n).lower ∨ (d.calOf m).lower = (d.calOf n).lower ∧
        ((d.calOf n).base < (d.calOf m).base ∨ (d.calOf n).base = (d.calOf m).base ∧ m.toNat < n.toNat) := by
  have asymm (x y) : d.closerThan x y = true → d.closerThan y x = false := by
    simp only [← Bool.not_eq_true, Device.closerThan_iff]
    omega
  have between (x y z) : d.closerThan x z = true → d.closerThan x y = true ∨ d.closerThan y z = true := by
    simp only [Device.closerThan_iff]
    omega
  obtain ⟨hm, least⟩ := bestBy_portsWhere asymm between h
  refine ⟨hm, fun n hn hne => ?_⟩
  have := least n hn hne
  simp only [← Bool.not_eq_true, Device.closerThan_iff] at this
  omega

/-! ### The preferred port (R16, R17) -/

/-- R16 step 2 is taken where no port of the set has its lower bound at the zoom or below it. -/
theorem Device.preferred_of_none_reached {d : Device} {ports : List PortId} {z : Nat}
    (h : ∀ n ∈ ports, z < (d.calOf n).lower) : d.preferred ports z = bestBy d.closerThan ports := by
  have empty : (ports.filter fun m => decide ((d.calOf m).lower ≤ z)) = [] := by simpa using h
  simp only [Device.preferred, empty]

/-- R16 step 1 is taken where some port of the set has its lower bound at the zoom or below it. -/
theorem Device.preferred_of_reached {d : Device} {ports : List PortId} {z : Nat}
    (h : ∃ n ∈ ports, (d.calOf n).lower ≤ z) :
    d.preferred ports z = d.longest (ports.filter fun m => decide ((d.calOf m).lower ≤ z)) := by
  simp only [Device.preferred]
  split
  next empty =>
    obtain ⟨n, hn, hz⟩ := h
    exact absurd (decide_eq_true hz) (List.filter_eq_nil_iff.mp empty n hn)
  next nonempty => rw [nonempty]

/-- R17: only the empty set has no preferred port. -/
theorem Device.preferred_eq_none_iff {d : Device} {ports : List PortId} {z : Nat} :
    d.preferred ports z = none ↔ ports = [] := by
  by_cases h : ∃ n ∈ ports, (d.calOf n).lower ≤ z
  · obtain ⟨n, hn, hz⟩ := h
    have reached : ports.filter (fun m => decide ((d.calOf m).lower ≤ z)) ≠ [] :=
      List.ne_nil_of_mem (List.mem_filter.mpr ⟨hn, decide_eq_true hz⟩)
    rw [Device.preferred_of_reached ⟨n, hn, hz⟩, Device.longest, bestBy_eq_none_iff]
    exact iff_of_false reached (List.ne_nil_of_mem hn)
  · have none_reached : ∀ n ∈ ports, z < (d.calOf n).lower := by simpa using h
    rw [Device.preferred_of_none_reached none_reached, bestBy_eq_none_iff]

/-- R16 step 1 for a set of ports: the longest of the ports that reach the zoom. -/
theorem Device.preferred_portsWhere_of_reached {d : Device} {keep : PortId → Bool} {z : Nat}
    (h : ∃ n, keep n = true ∧ (d.calOf n).lower ≤ z) :
    d.preferred (portsWhere keep) z = d.longest (portsWhere fun m => decide ((d.calOf m).lower ≤ z) && keep m) := by
  obtain ⟨n, hn, hz⟩ := h
  rw [Device.preferred_of_reached ⟨n, mem_portsWhere.mpr hn, hz⟩, portsWhere_filter]

/-- R16 step 2 for a set of ports: the closest of them. -/
theorem Device.preferred_portsWhere_of_none_reached {d : Device} {keep : PortId → Bool} {z : Nat}
    (h : ∀ n, keep n = true → z < (d.calOf n).lower) :
    d.preferred (portsWhere keep) z = bestBy d.closerThan (portsWhere keep) :=
  Device.preferred_of_none_reached fun n hn => h n (mem_portsWhere.mp hn)

/-- The preferred port of a set is one of the set. -/
theorem Device.preferred_portsWhere_mem {d : Device} {keep : PortId → Bool} {z : Nat} {m : PortId}
    (h : d.preferred (portsWhere keep) z = some m) : keep m = true := by
  by_cases reached : ∃ n, keep n = true ∧ (d.calOf n).lower ≤ z
  · rw [Device.preferred_portsWhere_of_reached reached] at h
    exact (Bool.and_eq_true_iff.mp (Device.longest_portsWhere h).1).2
  · rw [Device.preferred_portsWhere_of_none_reached (by simpa using reached)] at h
    exact (Device.closest_portsWhere h).1

/-- Settles O19: each step of R16 is the best member of the set, or of its ports that reach the zoom, under that step's
order. -/
theorem preferredPortIsTheRules : Obligations.PreferredPortIsTheRules := by
  intro d keep z lower base
  refine ⟨fun m => ⟨Device.isFallbackCandidate_iff, Device.isCandidate_iff⟩, rfl, rfl,
    Device.preferred_eq_none_iff.trans portsWhere_eq_nil_iff,
    fun m h => ⟨Device.preferred_portsWhere_mem h, fun reached => ?step1, fun none_reached => ?step2⟩⟩
  case step1 =>
    rw [Device.preferred_portsWhere_of_reached reached] at h
    obtain ⟨hm, longest⟩ := Device.longest_portsWhere h
    simp only [Bool.and_eq_true, decide_eq_true_eq] at hm longest
    exact ⟨hm.1, fun n hn hz hne => longest n ⟨hz, hn⟩ hne⟩
  case step2 =>
    rw [Device.preferred_portsWhere_of_none_reached none_reached] at h
    exact (Device.closest_portsWhere h).2

end Sys2Proof.Machine
end

section
/-! PROOFS. The crop geometry (Chapter 2, R18 to R27): what each rounding word yields, with O17 from it; then the bounds
of the width, the height and the origin of a window, with O20 from them. -/

namespace Sys2Proof.Machine

open Sys2Proof

/-! ### The rounding words (R18, Table 2-1) -/

theorem floorDiv_spec (n : Int) {d : Nat} (hd : 0 < d) : floorDiv n d * d ≤ n ∧ n < (floorDiv n d + 1) * d :=
  ⟨Int.ediv_mul_le n (by omega), Int.lt_ediv_add_one_mul_self n (by omega)⟩

theorem ceilDiv_eq_neg_floorDiv (n : Int) (d : Nat) : ceilDiv n d = -floorDiv (-n) d := rfl

theorem ceilDiv_spec (n : Int) {d : Nat} (hd : 0 < d) : (ceilDiv n d - 1) * d < n ∧ n ≤ ceilDiv n d * d := by
  obtain ⟨below, above⟩ := floorDiv_spec (-n) hd
  rw [ceilDiv_eq_neg_floorDiv]
  constructor <;> linarith

/-- Toward zero is down for a value that is not negative. -/
theorem truncDiv_of_nonneg {n : Int} (hn : 0 ≤ n) (d : Nat) : truncDiv n d = floorDiv n d :=
  Int.tdiv_eq_ediv_of_nonneg hn

/-- Toward zero is up for a value that is not positive. -/
theorem truncDiv_of_nonpos {n : Int} (hn : n ≤ 0) (d : Nat) : truncDiv n d = ceilDiv n d := by
  rw [ceilDiv_eq_neg_floorDiv, ← truncDiv_of_nonneg (Int.neg_nonneg_of_nonpos hn), truncDiv, truncDiv, Int.neg_tdiv,
    Int.neg_neg]

theorem truncDiv_spec_of_nonneg {n : Int} (hn : 0 ≤ n) {d : Nat} (hd : 0 < d) :
    0 ≤ truncDiv n d ∧ truncDiv n d * d ≤ n ∧ n < (truncDiv n d + 1) * d :=
  ⟨Int.tdiv_nonneg hn (Int.natCast_nonneg d), truncDiv_of_nonneg hn d ▸ floorDiv_spec n hd⟩

theorem truncDiv_spec_of_nonpos {n : Int} (hn : n ≤ 0) {d : Nat} (hd : 0 < d) :
    truncDiv n d ≤ 0 ∧ n ≤ truncDiv n d * d ∧ (truncDiv n d - 1) * d < n := by
  have sign : 0 ≤ floorDiv (-n) d := Int.ediv_nonneg (Int.neg_nonneg_of_nonpos hn) (Int.natCast_nonneg d)
  rw [truncDiv_of_nonpos hn d]
  exact ⟨Int.neg_nonpos_of_nonneg sign, (ceilDiv_spec n hd).symm⟩

/-- Each even word is twice its plain word of n / 2d. -/
theorem evenFloorDiv_eq (n : Int) (d : Nat) : evenFloorDiv n d = 2 * floorDiv n (2 * d) := rfl

theorem evenCeilDiv_eq (n : Int) (d : Nat) : evenCeilDiv n d = 2 * ceilDiv n (2 * d) := rfl

theorem evenTowardZeroDiv_eq (n : Int) (d : Nat) : evenTowardZeroDiv n d = 2 * truncDiv n (2 * d) := rfl

theorem evenFloorDiv_spec (n : Int) {d : Nat} (hd : 0 < d) :
    Even (evenFloorDiv n d) ∧ evenFloorDiv n d * d ≤ n ∧ n < (evenFloorDiv n d + 2) * d := by
  obtain ⟨below, above⟩ := floorDiv_spec n (Nat.mul_pos two_pos hd)
  push_cast at below above
  rw [evenFloorDiv_eq]
  exact ⟨even_two_mul _, by linarith, by linarith⟩

theorem evenCeilDiv_spec (n : Int) {d : Nat} (hd : 0 < d) :
    Even (evenCeilDiv n d) ∧ (evenCeilDiv n d - 2) * d < n ∧ n ≤ evenCeilDiv n d * d := by
  obtain ⟨below, above⟩ := ceilDiv_spec n (Nat.mul_pos two_pos hd)
  push_cast at below above
  rw [evenCeilDiv_eq]
  exact ⟨even_two_mul _, by linarith, by linarith⟩

theorem evenTowardZeroDiv_spec_of_nonneg {n : Int} (hn : 0 ≤ n) {d : Nat} (hd : 0 < d) :
    0 ≤ evenTowardZeroDiv n d ∧ evenTowardZeroDiv n d * d ≤ n ∧ n < (evenTowardZeroDiv n d + 2) * d := by
  obtain ⟨sign, below, above⟩ := truncDiv_spec_of_nonneg hn (Nat.mul_pos two_pos hd)
  push_cast at below above
  rw [evenTowardZeroDiv_eq]
  exact ⟨by linarith, by linarith, by linarith⟩

theorem evenTowardZeroDiv_spec_of_nonpos {n : Int} (hn : n ≤ 0) {d : Nat} (hd : 0 < d) :
    evenTowardZeroDiv n d ≤ 0 ∧ n ≤ evenTowardZeroDiv n d * d ∧ (evenTowardZeroDiv n d - 2) * d < n := by
  obtain ⟨sign, above, below⟩ := truncDiv_spec_of_nonpos hn (Nat.mul_pos two_pos hd)
  push_cast at above below
  rw [evenTowardZeroDiv_eq]
  exact ⟨by linarith, by linarith, by linarith⟩

/-- Settles O17: each plain word is the floor of n or of −n over d, and each even word is twice its plain word of
n / 2d. -/
theorem roundingWordsAreExact : Obligations.RoundingWordsAreExact := fun n _ hd =>
  ⟨floorDiv_spec n hd, ceilDiv_spec n hd,
    ⟨fun hn => truncDiv_spec_of_nonneg hn hd, fun hn => truncDiv_spec_of_nonpos hn hd⟩,
    evenFloorDiv_spec n hd, evenCeilDiv_spec n hd, even_two_mul _,
    fun hn => evenTowardZeroDiv_spec_of_nonneg hn hd, fun hn => evenTowardZeroDiv_spec_of_nonpos hn hd⟩

/-! ### The even words where a window uses them -/

theorem toNat_evenFloorDiv (n d : Nat) : (evenFloorDiv n d).toNat = 2 * (n / (2 * d)) := by
  rw [evenFloorDiv, ← Int.natCast_ediv]
  exact Int.toNat_natCast (2 * (n / (2 * d)))

theorem toNat_evenFloorDiv_mod_two (n d : Nat) : (evenFloorDiv n d).toNat % 2 = 0 := by
  rw [toNat_evenFloorDiv, Nat.mul_mod_right]

theorem toNat_evenFloorDiv_mul_le (n d : Nat) : (evenFloorDiv n d).toNat * d ≤ n := by
  rw [toNat_evenFloorDiv, Nat.mul_right_comm, Nat.mul_comm]
  exact Nat.div_mul_le_self n (2 * d)

/-- An even integer not above n / d is not above its even floor. -/
theorem le_toNat_evenFloorDiv {k n d : Nat} (hd : 0 < d) (h : 2 * k * d ≤ n) : 2 * k ≤ (evenFloorDiv n d).toNat := by
  rw [toNat_evenFloorDiv]
  refine Nat.mul_le_mul_left 2 ((Nat.le_div_iff_mul_le (Nat.mul_pos two_pos hd)).mpr ?_)
  linarith

theorem moduleShift_eq (e : Int) (size out : Nat) : moduleShift e size out = 2 * ((e * size).tdiv out).tdiv 2 := rfl

theorem unclampedOrigin_eq (centre size : Nat) (shift residual : Int) :
    unclampedOrigin centre size shift residual = 2 * (((centre : Int) - (size / 2 : Nat) + shift + residual) / 2) := rfl

/-! ### The width (R21, R22) -/

/-- R22: the minimum width, its even ceiling written out. -/
theorem minWidth_eq (wo : Nat) : minWidth wo = max 64 (2 * ((wo + 31) / 32)) := by
  rw [minWidth, evenCeilDiv]
  omega

/-- R21, its even floor written out. -/
theorem WindowInputs.cappedWidth_eq (i : WindowInputs) :
    i.cappedWidth = min i.wm (2 * (i.wm * i.base * 1000 / (2 * (i.zoom * i.trim)))) := by
  rw [WindowInputs.cappedWidth, toNat_evenFloorDiv]

theorem WindowInputs.flooredWidth_eq (i : WindowInputs) :
    i.flooredWidth = max (max 64 (2 * ((i.wo + 31) / 32)))
      (min i.wm (2 * (i.wm * i.base * 1000 / (2 * (i.zoom * i.trim))))) := by
  rw [WindowInputs.flooredWidth, minWidth_eq, WindowInputs.cappedWidth_eq]

/-- R22: the width is 64 at least and a sixteenth of the output's width at least. -/
theorem WindowInputs.flooredWidth_ge (i : WindowInputs) : 64 ≤ i.flooredWidth ∧ i.wo ≤ 16 * i.flooredWidth := by
  rw [WindowInputs.flooredWidth_eq]
  omega

theorem WindowInputs.flooredWidth_mod_two {i : WindowInputs} (even : i.wm % 2 = 0) : i.flooredWidth % 2 = 0 := by
  rw [WindowInputs.flooredWidth_eq]
  omega

/-- R22: the floor does not conflict with the cap of R21, since the minimum width is at most 240. -/
theorem WindowInputs.flooredWidth_le {i : WindowInputs} (frame : 640 ≤ i.wm) (output : i.wo ≤ 3840) :
    i.flooredWidth ≤ i.wm := by
  rw [WindowInputs.flooredWidth_eq]
  omega

/-! ### The size (R23) -/

theorem WindowInputs.wantedHeight_eq (i : WindowInputs) :
    i.wantedHeight = 2 * (i.flooredWidth * i.ho / (2 * i.wo)) :=
  toNat_evenFloorDiv _ _

/-- The height for a width that is a sixteenth of the output's width at least. -/
theorem WindowInputs.six_le_wantedHeight {i : WindowInputs} (wo_pos : 0 < i.wo) (ho_ge : 360 ≤ i.ho) :
    6 ≤ i.wantedHeight := by
  refine le_toNat_evenFloorDiv (k := 3) wo_pos ?_
  calc 2 * 3 * i.wo ≤ 2 * 3 * (16 * i.flooredWidth) := Nat.mul_le_mul_left _ i.flooredWidth_ge.2
    _ ≤ i.flooredWidth * 360 := by omega
    _ ≤ i.flooredWidth * i.ho := Nat.mul_le_mul_left _ ho_ge

/-- R23: the refit takes place where the height is too large, and then makes the width no larger. -/
theorem WindowInputs.refitWidth_le {i : WindowInputs} (ho_pos : 0 < i.ho) (high : i.hm < i.wantedHeight) :
    (evenFloorDiv (i.hm * i.wo : Nat) i.ho).toNat ≤ i.flooredWidth := by
  refine Nat.le_of_mul_le_mul_right ?_ ho_pos
  calc _ ≤ i.hm * i.wo := toNat_evenFloorDiv_mul_le _ _
    _ ≤ i.wantedHeight * i.wo := Nat.mul_le_mul_right _ high.le
    _ ≤ i.flooredWidth * i.ho := toNat_evenFloorDiv_mul_le _ _

/-- A frame 480 high at least, refitted to an output 640 wide at least and 2160 high at most. -/
theorem WindowInputs.refitWidth_ge {i : WindowInputs} (hm_ge : 480 ≤ i.hm) (wo_ge : 640 ≤ i.wo) (ho_pos : 0 < i.ho)
    (ho_le : i.ho ≤ 2160) : 64 ≤ (evenFloorDiv (i.hm * i.wo : Nat) i.ho).toNat := by
  refine le_toNat_evenFloorDiv (k := 32) ho_pos ?_
  calc 2 * 32 * i.ho ≤ 480 * 640 := by omega
    _ ≤ i.hm * i.wo := Nat.mul_le_mul hm_ge wo_ge

theorem WindowInputs.size_of_high {i : WindowInputs} (high : i.hm < i.wantedHeight) :
    i.size = ((evenFloorDiv (i.hm * i.wo : Nat) i.ho).toNat, i.hm) :=
  if_pos high

theorem WindowInputs.size_of_not_high {i : WindowInputs} (low : ¬ i.hm < i.wantedHeight) :
    i.size = (i.flooredWidth, i.wantedHeight) :=
  if_neg low

theorem WindowInputs.size_eq (i : WindowInputs) :
    i.size = if i.hm < i.wantedHeight then (2 * (i.hm * i.wo / (2 * i.ho)), i.hm)
      else (i.flooredWidth, i.wantedHeight) := by
  rw [← toNat_evenFloorDiv]
  rfl

/-- R27: the size lies on the even grid. -/
theorem WindowInputs.size_mod_two {i : WindowInputs} (wm_even : i.wm % 2 = 0) (hm_even : i.hm % 2 = 0) :
    i.size.1 % 2 = 0 ∧ i.size.2 % 2 = 0 := by
  by_cases high : i.hm < i.wantedHeight
  · rw [WindowInputs.size_of_high high]
    exact ⟨toNat_evenFloorDiv_mod_two _ _, hm_even⟩
  · rw [WindowInputs.size_of_not_high high]
    exact ⟨WindowInputs.flooredWidth_mod_two wm_even, toNat_evenFloorDiv_mod_two _ _⟩

/-- R27: the size is no larger than the frame's. -/
theorem WindowInputs.size_le_frame {i : WindowInputs} (wm_ge : 640 ≤ i.wm) (wo_le : i.wo ≤ 3840) (ho_pos : 0 < i.ho) :
    i.size.1 ≤ i.wm ∧ i.size.2 ≤ i.hm := by
  have width := WindowInputs.flooredWidth_le wm_ge wo_le
  by_cases high : i.hm < i.wantedHeight
  · rw [WindowInputs.size_of_high high]
    exact ⟨(WindowInputs.refitWidth_le ho_pos high).trans width, Nat.le_refl _⟩
  · rw [WindowInputs.size_of_not_high high]
    exact ⟨width, Nat.le_of_not_lt high⟩

/-- R27: a window is never empty. -/
theorem WindowInputs.size_ge {i : WindowInputs} (hm_ge : 480 ≤ i.hm) (wo_ge : 640 ≤ i.wo) (ho_ge : 360 ≤ i.ho)
    (ho_le : i.ho ≤ 2160) : 64 ≤ i.size.1 ∧ 6 ≤ i.size.2 := by
  by_cases high : i.hm < i.wantedHeight
  · rw [WindowInputs.size_of_high high]
    exact ⟨WindowInputs.refitWidth_ge hm_ge wo_ge (by omega) ho_le, by omega⟩
  · rw [WindowInputs.size_of_not_high high]
    exact ⟨i.flooredWidth_ge.1, WindowInputs.six_le_wantedHeight (by omega) ho_ge⟩

/-! ### The clamped origin (R26) -/

theorem natCast_toNat_clampOrigin (x : Int) (frame size : Nat) :
    ((clampOrigin x frame size).toNat : Int) = max 0 (min x (frame - size)) :=
  Int.toNat_of_nonneg (le_max_left _ _)

/-- R26: the clamped origin keeps the window in the frame. -/
theorem toNat_clampOrigin_add_le (x : Int) {frame size : Nat} (fits : size ≤ frame) :
    (clampOrigin x frame size).toNat + size ≤ frame := by
  have := natCast_toNat_clampOrigin x frame size
  omega

/-- R26: the clamped origin is even, since the unclamped origin, the frame and the size are. -/
theorem toNat_clampOrigin_mod_two {x : Int} {frame size : Nat} (x_even : x % 2 = 0) (frame_even : frame % 2 = 0)
    (size_even : size % 2 = 0) : (clampOrigin x frame size).toNat % 2 = 0 := by
  have := natCast_toNat_clampOrigin x frame size
  omega

/-- R26: the clamp moves an origin exactly when it lies outside the places the window can take. -/
theorem clampOrigin_ne_iff (x : Int) {frame size : Nat} (fits : size ≤ frame) :
    clampOrigin x frame size ≠ x ↔ x < 0 ∨ ((frame - size : Nat) : Int) < x := by
  rw [clampOrigin]
  omega

theorem unclampedOrigin_mod_two (centre size : Nat) (shift residual : Int) :
    unclampedOrigin centre size shift residual % 2 = 0 :=
  Int.mul_emod_right 2 _

/-! ### The answer (R27) -/

theorem WindowInputs.floorFlag_iff (i : WindowInputs) :
    i.answer.floorFlag = true ↔ i.cappedWidth < minWidth i.wo :=
  decide_eq_true_iff

theorem WindowInputs.edge_iff (i : WindowInputs) (fits_w : i.size.1 ≤ i.wm) (fits_h : i.size.2 ≤ i.hm) :
    let x := unclampedOrigin i.cx i.size.1 (moduleShift i.ex i.size.1 i.wo) i.rx
    let y := unclampedOrigin i.cy i.size.2 (moduleShift i.ey i.size.2 i.ho) i.ry
    i.answer.edge = true ↔
      x < 0 ∨ ((i.wm - i.size.1 : Nat) : Int) < x ∨ y < 0 ∨ ((i.hm - i.size.2 : Nat) : Int) < y := by
  intro x y
  calc i.answer.edge = true
      ↔ clampOrigin x i.wm i.size.1 ≠ x ∨ clampOrigin y i.hm i.size.2 ≠ y := by
        simp only [WindowInputs.answer, Bool.or_eq_true, decide_eq_true_eq, x, y]
    _ ↔ _ := by rw [clampOrigin_ne_iff x fits_w, clampOrigin_ne_iff y fits_h, or_assoc]

/-- Settles O20: R21 to R23 give an even size that fits the frame and is not empty, and for such a size the clamp of R26
gives an even origin that keeps the window in the frame. -/
theorem windowLiesInTheFrame : Obligations.WindowLiesInTheFrame := by
  intro i wm_ge _ wm_even hm_ge _ hm_even wo_ge wo_le _ ho_ge ho_le _ _ _ _ _ _ _ a x y least zoomed width height shift
  obtain ⟨w_fits, h_fits⟩ := WindowInputs.size_le_frame wm_ge wo_le (by omega : 0 < i.ho)
  obtain ⟨w_even, h_even⟩ := WindowInputs.size_mod_two wm_even hm_even
  obtain ⟨w_ge, h_ge⟩ := WindowInputs.size_ge hm_ge wo_ge ho_ge ho_le
  have width_eq : i.flooredWidth = width := i.flooredWidth_eq
  have height_eq : i.wantedHeight = height := by rw [i.wantedHeight_eq, width_eq]
  have floor_eq : a.floorFlag = true ↔ zoomed < least := by
    rw [i.floorFlag_iff, i.cappedWidth_eq, minWidth_eq]
  exact ⟨i.size_eq.trans (by rw [height_eq, width_eq]), unclampedOrigin_eq .., unclampedOrigin_eq ..,
    natCast_toNat_clampOrigin .., natCast_toNat_clampOrigin .., floor_eq, toNat_clampOrigin_add_le _ w_fits,
    toNat_clampOrigin_add_le _ h_fits,
    toNat_clampOrigin_mod_two (unclampedOrigin_mod_two ..) wm_even w_even,
    toNat_clampOrigin_mod_two (unclampedOrigin_mod_two ..) hm_even h_even,
    w_even, h_even, w_ge, h_ge, i.edge_iff w_fits h_fits, i.floorFlag_iff⟩

end Sys2Proof.Machine
end

section
/-! PROOFS. The choice of the registration probe (Chapter 5, R86, R87): the candidates in the order of the search, the tie
order as a linear order of keys, and O48 from them. -/

namespace Sys2Proof.Machine

open Sys2Proof

/-! ### The candidates (R86) -/

theorem probeOffsets_eq : probeOffsets = (List.range 17).map fun i : Nat => 2 * (i : Int) - 16 := rfl

theorem mem_probeOffsets {x : Int} : x ∈ probeOffsets ↔ -16 ≤ x ∧ x ≤ 16 ∧ x % 2 = 0 := by
  simp only [probeOffsets_eq, List.mem_map, List.mem_range]
  constructor
  · rintro ⟨i, hi, rfl⟩
    omega
  · intro h
    exact ⟨((x + 16) / 2).toNat, by omega, by omega⟩

theorem probeOffsets_ascending : probeOffsets.Pairwise (· < ·) := by
  rw [probeOffsets_eq]
  exact List.pairwise_map.mpr (List.pairwise_lt_range.imp fun h => by omega)

theorem mem_probeCandidates {c : Int × Int} : c ∈ probeCandidates ↔ c.1 ∈ probeOffsets ∧ c.2 ∈ probeOffsets := by
  obtain ⟨rx, ry⟩ := c
  simp [probeCandidates, and_comm]

/-- A number that grows along the search, which goes row by row. -/
def searchNumber (c : Int × Int) : Nat := (33 * (c.2 + 16) + (c.1 + 16)).toNat

theorem searchNumber_lt_of_row {ry rx rx' : Int} (hry : ry ∈ probeOffsets) (hrx : rx ∈ probeOffsets) (h : rx < rx') :
    searchNumber (rx, ry) < searchNumber (rx', ry) := by
  rw [mem_probeOffsets] at hry hrx
  simp only [searchNumber]
  omega

theorem searchNumber_lt_of_rows {ry ry' rx rx' : Int} (hry : ry ∈ probeOffsets) (hrx : rx ∈ probeOffsets)
    (hrx' : rx' ∈ probeOffsets) (h : ry < ry') : searchNumber (rx, ry) < searchNumber (rx', ry') := by
  rw [mem_probeOffsets] at hry hrx hrx'
  simp only [searchNumber]
  omega

/-- R86: no candidate stands twice in the search. -/
theorem probeCandidates_ascending : probeCandidates.Pairwise fun c c' => searchNumber c < searchNumber c' := by
  refine List.pairwise_flatMap.mpr ⟨fun ry hry => ?_, ?_⟩
  · exact List.pairwise_map.mpr
      (probeOffsets_ascending.imp_of_mem fun hrx _ h => searchNumber_lt_of_row hry hrx h)
  · refine probeOffsets_ascending.imp_of_mem fun hry _ h c hc c' hc' => ?_
    obtain ⟨rx, hrx, rfl⟩ := List.mem_map.mp hc
    obtain ⟨rx', hrx', rfl⟩ := List.mem_map.mp hc'
    exact searchNumber_lt_of_rows hry hrx hrx' h

/-! ### The tie order (R87) -/

/-- R87: what a candidate is ranked by: its cost, then |rx| + |ry|, then ry, then rx. -/
def choiceKey (x : Nat × Int × Int) : ℕ ×ₗ ℕ ×ₗ ℤ ×ₗ ℤ :=
  toLex (x.1, toLex (x.2.1.natAbs + x.2.2.natAbs, toLex (x.2.2, x.2.1)))

theorem chosenBefore_iff {x y : Nat × Int × Int} :
    chosenBefore x y = true ↔ x.1 < y.1 ∨ x.1 = y.1 ∧
      (x.2.1.natAbs + x.2.2.natAbs < y.2.1.natAbs + y.2.2.natAbs ∨
        x.2.1.natAbs + x.2.2.natAbs = y.2.1.natAbs + y.2.2.natAbs ∧
          (x.2.2 < y.2.2 ∨ x.2.2 = y.2.2 ∧ x.2.1 < y.2.1)) := by
  simp [chosenBefore]

theorem chosenBefore_iff_choiceKey_lt {x y : Nat × Int × Int} :
    chosenBefore x y = true ↔ choiceKey x < choiceKey y := by
  simp [chosenBefore_iff, choiceKey, Prod.Lex.toLex_lt_toLex]

theorem choiceKey_injective : Function.Injective choiceKey := by
  rintro ⟨cost, rx, ry⟩ ⟨cost', rx', ry'⟩ h
  simp only [choiceKey, EmbeddingLike.apply_eq_iff_eq, Prod.mk.injEq] at h
  obtain ⟨rfl, -, rfl, rfl⟩ := h
  rfl

theorem chosenBefore_asymm (x y : Nat × Int × Int) (h : chosenBefore x y = true) : chosenBefore y x = false := by
  rw [← Bool.not_eq_true, chosenBefore_iff_choiceKey_lt]
  exact (chosenBefore_iff_choiceKey_lt.mp h).asymm

theorem chosenBefore_between (x y z : Nat × Int × Int) (h : chosenBefore x z = true) :
    chosenBefore x y = true ∨ chosenBefore y z = true := by
  simp only [chosenBefore_iff_choiceKey_lt] at h ⊢
  exact (lt_or_ge _ _).imp_right fun hyx => hyx.trans_lt h

/-- R87: of two candidates one is always chosen before the other. -/
theorem chosenBefore_of_not {x y : Nat × Int × Int} (hne : y ≠ x) (h : chosenBefore y x = false) :
    chosenBefore x y = true := by
  rw [← Bool.not_eq_true, chosenBefore_iff_choiceKey_lt, not_lt] at h
  exact chosenBefore_iff_choiceKey_lt.mpr (h.lt_of_ne fun key => hne (choiceKey_injective key).symm)

/-! ### The chosen offset (R87) -/

/-- The chosen offset is the best of the candidates: the search is never empty. -/
theorem bestBy_probeCandidates (cost : Int × Int → Nat) :
    bestBy chosenBefore (probeCandidates.map fun c => (cost c, c.1, c.2)) = some (chosenOffset cost) := by
  have nonempty : bestBy chosenBefore (probeCandidates.map fun c => (cost c, c.1, c.2)) ≠ none := by
    have centre : ((0, 0) : Int × Int) ∈ probeCandidates := by simp [mem_probeCandidates, mem_probeOffsets]
    rw [Ne, bestBy_eq_none_iff, List.map_eq_nil_iff]
    exact List.ne_nil_of_mem centre
  obtain ⟨best, h⟩ := Option.ne_none_iff_exists'.mp nonempty
  rw [chosenOffset, h, Option.getD_some]

/-- The chosen offset is a candidate with its cost, and is chosen before every other candidate. -/
theorem chosenOffset_spec (cost : Int × Int → Nat) :
    (chosenOffset cost).2 ∈ probeCandidates ∧ (chosenOffset cost).1 = cost (chosenOffset cost).2 ∧
      ∀ c ∈ probeCandidates, c ≠ (chosenOffset cost).2 → chosenBefore (chosenOffset cost) (cost c, c) = true := by
  obtain ⟨mem, unbeaten⟩ := bestBy_spec (number := fun x => searchNumber x.2) chosenBefore_asymm chosenBefore_between
    (List.pairwise_map.mpr probeCandidates_ascending) (bestBy_probeCandidates cost)
  obtain ⟨c, hc, chosen⟩ := List.mem_map.mp mem
  rw [← chosen]
  refine ⟨hc, rfl, fun c' hc' hne => ?_⟩
  have other : (cost c', c') ≠ (cost c, c) := fun h => hne (congrArg Prod.snd h)
  rw [← chosen] at unbeaten
  exact chosenBefore_of_not other (unbeaten _ (List.mem_map_of_mem hc') other).1

/-- Settles O48: the chosen offset is the best of the candidates, no two of which the tie order leaves equal. -/
theorem probeChoosesTheLeastCost : Obligations.ProbeChoosesTheLeastCost := by
  intro cost candidate
  have mem_iff (c : Int × Int) : c ∈ probeCandidates ↔ candidate c.1 ∧ candidate c.2 := by
    rw [mem_probeCandidates, mem_probeOffsets, mem_probeOffsets]
  have spec := chosenOffset_spec cost
  -- with the choice as a variable, no comparison of terms runs the search
  generalize chosenOffset cost = best at spec ⊢
  obtain ⟨mem, best_cost, before⟩ := spec
  obtain ⟨hrx, hry⟩ := (mem_iff _).mp mem
  exact ⟨hrx, hry, best_cost, fun rx ry hrx hry hne =>
    chosenBefore_iff.mp (before (rx, ry) ((mem_iff _).mpr ⟨hrx, hry⟩) hne)⟩

end Sys2Proof.Machine
end

section
/-! PROOFS. Motion samples and the capture input (Chapter 6): the sample a lookup chooses (R96) and the motion level (R97),
with O26 from them; then what an edge of the CAPTURE line does (R102), with O28 from it. -/

namespace Sys2Proof.Machine

open Sys2Proof

/-! ### The motion lookup (R96) -/

theorem chosenSample_eq_none {ring : List MotionSample} {t : Nat} (later : ∀ x ∈ ring, t < x.stamp) :
    chosenSample ring t = none := by
  have none_kept : ring.filter (fun x => decide (x.stamp ≤ t)) = [] := by simpa using later
  rw [chosenSample, none_kept, List.getLast?_nil]

/-- The ring stands oldest first, so of the samples stamped at or before `t` the one with only later ones behind it is
chosen, ties included. -/
theorem chosenSample_append_cons {older newer : List MotionSample} {x : MotionSample} {t : Nat} (hx : x.stamp ≤ t)
    (later : ∀ y ∈ newer, t < y.stamp) : chosenSample (older ++ x :: newer) t = some x := by
  have newer_dropped : newer.filter (fun y => decide (y.stamp ≤ t)) = [] := by simpa using later
  have x_kept : (x :: newer).filter (fun y => decide (y.stamp ≤ t)) = [x] := by
    rw [List.filter_cons_of_pos (by simpa using hx), newer_dropped]
  rw [chosenSample, List.filter_append, x_kept, List.getLast?_concat]

theorem Device.lookup_of_chosenSample_none {d : Device} {t : Nat} (h : chosenSample d.motion t = none) :
    d.lookup t = { ex := 0, ey := 0, noMotion := true, stale := false } := by
  rw [Device.lookup, h]

theorem Device.lookup_of_chosenSample_some {d : Device} {t : Nat} {x : MotionSample}
    (h : chosenSample d.motion t = some x) :
    d.lookup t =
      { ex := x.ex, ey := x.ey, noMotion := false, stale := decide (d.ctl.handoff.staleLimit < t - x.stamp) } := by
  rw [Device.lookup, h]

/-! ### The motion level (R97) -/

theorem Device.motionLevel_of_nil {d : Device} (h : d.motion = []) : d.motionLevel = 0 := by
  rw [Device.motionLevel, h, List.getLast?_nil]

theorem Device.motionLevel_of_concat {d : Device} {older : List MotionSample} {x : MotionSample}
    (h : d.motion = older ++ [x]) : d.motionLevel = x.q := by
  rw [Device.motionLevel, h, List.getLast?_concat]

/-- Settles O26: the ring split at the newest sample stamped at or before the capture time has that sample as the chosen
one, and the motion level reads the newest end of the ring. -/
theorem motionLookupFindsTheNewestSample : Obligations.MotionLookupFindsTheNewestSample := by
  intro d t
  refine ⟨fun later => Device.lookup_of_chosenSample_none (chosenSample_eq_none later),
    fun older newer x ring hx later => Device.lookup_of_chosenSample_some ?chosen,
    Device.motionLevel_of_nil, fun older x => Device.motionLevel_of_concat⟩
  case chosen => rw [ring, chosenSample_append_cons hx later]

/-! ### The CAPTURE line (R102) -/

@[simp] theorem CaptureSelect.includes_none (e : Edge) : CaptureSelect.none.includes e = false := rfl

@[simp] theorem CaptureSelect.includes_rising_iff {e : Edge} : CaptureSelect.rising.includes e = true ↔ e = .rising := by
  cases e <;> decide

@[simp] theorem CaptureSelect.includes_falling_iff {e : Edge} :
    CaptureSelect.falling.includes e = true ↔ e = .falling := by
  cases e <;> decide

@[simp] theorem CaptureSelect.includes_both (e : Edge) : CaptureSelect.both.includes e = true := rfl

theorem exec_captureEdge (e : Edge) (s : State) :
    exec (.captureEdge e) s = .next (s.withDevice (s.dev.captureEdge e)) := rfl

theorem Device.captureEdge_of_includes {d : Device} {e : Edge} (streaming : d.mode = .streaming)
    (included : d.planner.captureSelect.includes e = true) :
    d.captureEdge e = Device.raise
      { d with planner := { d.planner with guard := d.ctl.handoff.guardLength, markPending := true } }
      .captureEdge (EventDetail.ofPeriod d.currentPeriod (some (edgeNumber e))) := by
  rw [Device.captureEdge, if_pos ⟨streaming, included⟩]
  rfl

theorem Device.captureEdge_of_not_includes {d : Device} {e : Edge}
    (excluded : d.mode ≠ .streaming ∨ ¬ d.planner.captureSelect.includes e = true) : d.captureEdge e = d := by
  rw [Device.captureEdge, if_neg (not_and_or.mpr excluded)]

/-- Settles O28: the directions each selection of R101 names are those the model tests, so an edge is either taken or
leaves the device as it is. -/
theorem captureEdgeSetsGuardAndMark : Obligations.CaptureEdgeSetsGuardAndMark := by
  intro e s selected
  have includes_iff : s.dev.planner.captureSelect.includes e = true ↔ selected := by
    simp only [selected]
    cases s.dev.planner.captureSelect with
    | none => simp only [CaptureSelect.includes_none, Bool.false_eq_true]
    | rising => exact CaptureSelect.includes_rising_iff
    | falling => exact CaptureSelect.includes_falling_iff
    | both => simp only [CaptureSelect.includes_both]
  rw [exec_captureEdge]
  refine ⟨fun streaming hsel => ?taken, fun excluded => ?ignored⟩
  case taken =>
    rw [Device.captureEdge_of_includes streaming (includes_iff.mpr hsel)]
    cases e <;> rfl
  case ignored =>
    rw [Device.captureEdge_of_not_includes (excluded.imp_right (mt includes_iff.mp))]
    rfl

end Sys2Proof.Machine
end

section
/-! PROOFS. Pairing (Chapter 8, R136, R137): what the largest number of a list is, which slot is found for a port and a
content period, and what the pairing rule and the pair query answer, with O38 from them. -/

namespace Sys2Proof.Machine

open Sys2Proof

/-! ### The largest number that meets a bound -/

theorem largestWhere_eq_none_iff {keep : Nat → Bool} {l : List Nat} :
    largestWhere keep l = none ↔ ∀ a ∈ l, ¬ keep a = true := by
  induction l with
  | nil => simp [largestWhere]
  | cons k rest ih =>
    rw [List.forall_mem_cons, ← ih, largestWhere]
    cases largestWhere keep rest with
    | none => simp
    | some b =>
      dsimp only
      split <;> simp

theorem largestWhere_spec {keep : Nat → Bool} {l : List Nat} {p : Nat} (h : largestWhere keep l = some p) :
    p ∈ l ∧ keep p = true ∧ ∀ a ∈ l, keep a = true → a ≤ p := by
  induction l generalizing p with
  | nil => cases h
  | cons k rest ih =>
    rw [largestWhere] at h
    rw [List.forall_mem_cons]
    cases tail : largestWhere keep rest with
    | none =>
      have none_kept := largestWhere_eq_none_iff.mp tail
      simp only [tail, Option.ite_none_right_eq_some, Option.some.injEq] at h
      obtain ⟨kept, rfl⟩ := h
      exact ⟨List.mem_cons_self, kept, fun _ => le_rfl, fun a ha ha_kept => absurd ha_kept (none_kept a ha)⟩
    | some b =>
      obtain ⟨hb, hb_kept, bound⟩ := ih tail
      simp only [tail, Bool.and_eq_true, decide_eq_true_eq] at h
      split at h
      case isTrue larger =>
        cases h
        obtain ⟨kept, lt⟩ := larger
        exact ⟨List.mem_cons_self, kept, fun _ => le_rfl, fun a ha ha_kept => (bound a ha ha_kept).trans lt.le⟩
      case isFalse not_larger =>
        cases h
        exact ⟨List.mem_cons_of_mem _ hb, hb_kept, fun kept => not_lt.mp fun lt => not_larger ⟨kept, lt⟩, bound⟩

theorem largestWhere_eq_some {keep : Nat → Bool} {l : List Nat} {p : Nat} (hp : p ∈ l) (kept : keep p = true)
    (bound : ∀ a ∈ l, keep a = true → a ≤ p) : largestWhere keep l = some p := by
  cases found : largestWhere keep l with
  | none => exact absurd kept (largestWhere_eq_none_iff.mp found p hp)
  | some q =>
    obtain ⟨hq, q_kept, q_bound⟩ := largestWhere_spec found
    rw [le_antisymm (bound q hq q_kept) (q_bound p hp kept)]

/-! ### The slot of a port and a content period -/

/-- The slot is a READY or HELD one of the port, with the content period. -/
def Device.HoldsFrame (d : Device) (q : PortId) (j : Nat) (x : Slot) : Prop :=
  x ∈ d.slots ∧ x.owner = some q ∧ (x.state = .ready ∨ x.state = .held) ∧ x.period = some j

/-- R133, of the complete slots: no two of one port have one content period. -/
def Device.FramesUnique (d : Device) : Prop :=
  ∀ q j x y, d.HoldsFrame q j x → d.HoldsFrame q j y → x = y

theorem Slot.ownedBy_iff {s : Slot} {m : PortId} : s.ownedBy m = true ↔ s.owner = some m := decide_eq_true_iff

theorem Slot.complete_iff {s : Slot} : s.complete = true ↔ s.state = .ready ∨ s.state = .held := by
  simp only [Slot.complete, Bool.or_eq_true, decide_eq_true_eq]

theorem Device.mem_completePeriods {d : Device} {m : PortId} {k : Nat} :
    k ∈ d.completePeriods m ↔ ∃ x, d.HoldsFrame m k x := by
  simp only [Device.completePeriods, List.mem_filterMap, List.mem_filter, Bool.and_eq_true, Slot.ownedBy_iff,
    Slot.complete_iff, Device.HoldsFrame, and_assoc]

theorem Device.slotOf_holdsFrame {d : Device} {m : PortId} {k : Nat} {x : Slot} (h : d.slotOf m k = some x) :
    d.HoldsFrame m k x := by
  have found := List.find?_some h
  simp only [Bool.and_eq_true, Slot.ownedBy_iff, Slot.complete_iff, decide_eq_true_eq, and_assoc] at found
  exact ⟨Device.slotOf_mem h, found⟩

theorem Device.slotOf_eq_none_iff {d : Device} {m : PortId} {k : Nat} :
    d.slotOf m k = none ↔ ∀ x, ¬ d.HoldsFrame m k x := by
  simp only [Device.slotOf, List.find?_eq_none, Bool.and_eq_true, Slot.ownedBy_iff, Slot.complete_iff,
    decide_eq_true_eq, Device.HoldsFrame, not_and, and_imp]

theorem Device.slotOf_isSome_iff {d : Device} {m : PortId} {k : Nat} :
    (d.slotOf m k).isSome = true ↔ ∃ x, d.HoldsFrame m k x := by
  rw [Option.isSome_iff_ne_none, Ne, Device.slotOf_eq_none_iff, not_forall_not]

/-- `slotOf` takes the first such slot of the list; under R133 there is only one to take. -/
theorem Device.FramesUnique.slotOf_eq_some {d : Device} (unique : d.FramesUnique) {m : PortId} {k : Nat} {x : Slot}
    (hx : d.HoldsFrame m k x) : d.slotOf m k = some x := by
  obtain ⟨y, found⟩ := Option.isSome_iff_exists.mp (Device.slotOf_isSome_iff.mpr ⟨x, hx⟩)
  rw [found, unique m k y x (Device.slotOf_holdsFrame found) hx]

/-! ### The pairing rule (R136) -/

theorem Device.pair_of_slotOf_some {d : Device} {m : PortId} {k : Nat} {x : Slot} (h : d.slotOf m k = some x) :
    d.pair m k = some (x, false) := by
  rw [Device.pair, h]

theorem Device.pair_of_slotOf_none {d : Device} {m : PortId} {k : Nat} (h : d.slotOf m k = none) :
    d.pair m k =
      (largestWhere (fun p => decide (p < k)) (d.completePeriods m)).bind fun p =>
        (d.slotOf m p).map fun s => (s, true) := by
  rw [Device.pair, h]
  cases largestWhere (fun p => decide (p < k)) (d.completePeriods m) <;> rfl

/-- A LATE answer: the port's newest frame before the period asked for. -/
theorem Device.FramesUnique.pair_eq_late {d : Device} (unique : d.FramesUnique) {m : PortId} {j k : Nat} {x : Slot}
    (none_now : ∀ y, ¬ d.HoldsFrame m k y) (hx : d.HoldsFrame m j x) (before : j < k)
    (newest : ∀ i y, d.HoldsFrame m i y → i < k → i ≤ j) : d.pair m k = some (x, true) := by
  have largest : largestWhere (fun p => decide (p < k)) (d.completePeriods m) = some j := by
    refine largestWhere_eq_some (Device.mem_completePeriods.mpr ⟨x, hx⟩) (decide_eq_true before) ?_
    intro i hi lt
    obtain ⟨y, hy⟩ := Device.mem_completePeriods.mp hi
    exact newest i y hy (of_decide_eq_true lt)
  rw [Device.pair_of_slotOf_none (Device.slotOf_eq_none_iff.mpr none_now), largest, Option.bind_some,
    unique.slotOf_eq_some hx, Option.map_some]

theorem Device.pair_eq_none {d : Device} {m : PortId} {k : Nat} (none_yet : ∀ j x, j ≤ k → ¬ d.HoldsFrame m j x) :
    d.pair m k = none := by
  have none_before : largestWhere (fun p => decide (p < k)) (d.completePeriods m) = none := by
    rw [largestWhere_eq_none_iff]
    intro j hj lt
    obtain ⟨x, hx⟩ := Device.mem_completePeriods.mp hj
    exact none_yet j x (of_decide_eq_true lt).le hx
  rw [Device.pair_of_slotOf_none (Device.slotOf_eq_none_iff.mpr fun x => none_yet k x le_rfl), none_before,
    Option.bind_none]

/-! ### The pair query (R137) -/

theorem Device.FramesUnique.pairQuery_eq_some {d : Device} (unique : d.FramesUnique) {a t : PortId} {k : Nat}
    {x y : Slot} (hx : d.HoldsFrame a k x) (hy : d.HoldsFrame t k y)
    (newest : ∀ i x' y', d.HoldsFrame a i x' → d.HoldsFrame t i y' → i ≤ k) : d.pairQuery a t = some (x, y) := by
  have largest : largestWhere (fun i => (d.slotOf t i).isSome) (d.completePeriods a) = some k := by
    refine largestWhere_eq_some (Device.mem_completePeriods.mpr ⟨x, hx⟩) (Device.slotOf_isSome_iff.mpr ⟨y, hy⟩) ?_
    intro i hi shared
    obtain ⟨x', hx'⟩ := Device.mem_completePeriods.mp hi
    obtain ⟨y', hy'⟩ := Device.slotOf_isSome_iff.mp shared
    exact newest i x' y' hx' hy'
  simp only [Device.pairQuery, largest, unique.slotOf_eq_some hx, unique.slotOf_eq_some hy]

theorem Device.pairQuery_eq_none {d : Device} {a t : PortId}
    (none_shared : ∀ j x y, d.HoldsFrame a j x → ¬ d.HoldsFrame t j y) : d.pairQuery a t = none := by
  have no_period : largestWhere (fun i => (d.slotOf t i).isSome) (d.completePeriods a) = none := by
    rw [largestWhere_eq_none_iff]
    intro j hj shared
    obtain ⟨x, hx⟩ := Device.mem_completePeriods.mp hj
    obtain ⟨y, hy⟩ := Device.slotOf_isSome_iff.mp shared
    exact none_shared j x y hx hy
  rw [Device.pairQuery, no_period]

/-- Settles O38: each answer of R136 is `slotOf` at the period itself or at the largest period below it, and the pair
query's is `slotOf` of both ports at the largest period they share. -/
theorem pairingFindsTheFrame : Obligations.PairingFindsTheFrame := by
  intro d m n k holds unique
  have unique : d.FramesUnique := unique
  exact ⟨fun x hx => Device.pair_of_slotOf_some (unique.slotOf_eq_some hx),
    fun j x => unique.pair_eq_late, Device.pair_eq_none, fun j x y => unique.pairQuery_eq_some,
    Device.pairQuery_eq_none⟩

end Sys2Proof.Machine
end

section
/-! PROOFS. What one step can make of the device (Chapters 3 to 12): one case for each outcome of a command, an event or a
tick, with the guards under which it comes. Every invariant below is proved case by case over it. -/

namespace Sys2Proof

/-- A step's row that is a period start with one outcome, or PERIOD_START itself (assumption log 6). -/
def Instr.plansPeriod : Instr → Bool
  | .periodStart | .rampComplete | .holdExpired | .guardExpiry | .barExpiry _ | .prepareTimeout | .probeSkip
  | .blendCommit => true
  | _ => false

end Sys2Proof

namespace Sys2Proof.Machine

open Sys2Proof

/-! ### The outcomes of a command and of an event -/

/-- What the owner of a command taken on port `p` makes of the device, in the modes that take the command
(Table 11-3). -/
inductive Device.Owned : Instr → CmdPort → Device → Device → Prop where
  /-- A query, a refusal by the owning rule, or a command that is ignored. -/
  | unchanged (i : Instr) (p : CmdPort) (d : Device) : Owned i p d d
  | causeRead (p : CmdPort) (d : Device) : Owned (.getStatus p) p d (d.setCause p .cleared)
  | wake (p : CmdPort) (d : Device) (hm : d.mode = .dormant) : Owned (.wake p) p d d.startWaking
  | sleep (p : CmdPort) (d : Device) (hm : d.mode = .standby) : Owned (.sleep p) p d d.goToSleep
  | softReset (p : CmdPort) (d : Device) (hm : d.mode = .standby ∨ d.mode = .streaming ∨ d.mode = .stopping) :
    Owned (.softReset p) p d (d.softReset p)
  | portConfig (p : CmdPort) (f : PortFields) (d : Device) (m : PortId) (c : PortConfig) (hm : d.mode = .standby)
    (hs : (d.port m).state = .off ∨ (d.port m).state = .dead) (hc : portConfigOf d.ctl.output f = some c)
    (hq : d.quotaSum m c.quota ≤ 12) :
    Owned (.portConfig p f) p d (d.onPort m fun q => { q with config := some c, newestExposure := c.exposure })
  | portEnable (p : CmdPort) (port : Byte) (d : Device) (m : PortId) (hm : d.mode = .standby ∨ d.mode = .streaming) :
    Owned (.portEnable p port) p d (d.bringUp m .available .portReset)
  | portDisable (p : CmdPort) (port : Byte) (d : Device) (m : PortId)
    (hm : d.mode = .standby ∨ d.mode = .streaming) : Owned (.portDisable p port) p d (d.disable m)
  | calWrite (p : CmdPort) (f : CalFields) (d : Device) (m : PortId) (hm : d.mode = .standby)
    (hw : (d.calOf m).written = false) (hr : calInRange f = true) :
    Owned (.calWrite p f) p d { d with cal := d.cal.set m (calibrationOf f) }
  | outputConfig (p : CmdPort) (f : OutputFields) (d : Device) (hm : d.mode = .standby) (hr : outputInRange f = true) :
    Owned (.outputConfig p f) p d (d.onCtl fun c => { c with output := outputOf f })
  | handoffConfig (p : CmdPort) (f : HandoffFields) (d : Device) (hm : d.mode = .standby)
    (hr : handoffInRange f = true) :
    Owned (.handoffConfig p f) p d (d.onCtl fun c => { c with handoff := handoffOf f })
  | zoomSet (p : CmdPort) (z : Word16) (d : Device) :
    Owned (.zoomSet p z) p d (d.onPlanner fun q => { q with nominal := d.clampZoom z.toNat })
  | zoomAppend (p : CmdPort) (id : Byte) (target : Word16) (n mode : Byte) (d : Device)
    (hq : d.planner.queue.length < 8) :
    Owned (.zoomRequestAppend p id target n mode) p d
      (d.onPlanner fun q => { q with queue := q.queue ++ [d.zoomEntry id target n] })
  | zoomReplace (p : CmdPort) (id : Byte) (target : Word16) (n : Byte) (d : Device) :
    Owned (.zoomRequestReplace p id target n) p d (d.dropRequests [d.zoomEntry id target n] 0)
  | zoomCancel (p : CmdPort) (d : Device) : Owned (.zoomCancel p) p d (d.dropRequests [] 1)
  | hold (i : Instr) (p : CmdPort) (n : Nat) (d : Device) (hi : i.command? = some (p, .handoffHold)) :
    Owned i p d (d.onPlanner fun q => { q with hold := n })
  | captureConfig (p : CmdPort) (edge : Byte) (c : CaptureSelect) (d : Device) :
    Owned (.captureConfig p edge) p d (d.onPlanner fun q => { q with captureSelect := c })
  | motionSample (p : CmdPort) (ex ey q : Word16) (d : Device) (hm : d.mode = .streaming) :
    Owned (.motionSample p ex ey q) p d (d.motionSample ex ey q).2
  | streamStart (p : CmdPort) (d : Device) (a : PortId) (hm : d.mode = .standby)
    (ha : d.preferredCandidate = some a) : Owned (.streamStart p) p d (d.startStream a)
  | streamStop (p : CmdPort) (d : Device) (hm : d.mode = .streaming) : Owned (.streamStop p) p d d.stopStream
  | outputFence (p : CmdPort) (d : Device) :
    Owned (.outputFence p) p d (d.onLink fun l => { l with fence := some (d.nextPeriod - 1) })
  | eventConfig (p : CmdPort) (enables urgencies : Word24) (masters : Byte) (d : Device) :
    Owned (.eventConfig p enables urgencies masters) p d
      (d.setEventSet p ((d.eventSet p).configure enables urgencies masters))
  | ackEvents (p : CmdPort) (kinds : List Byte) (d : Device) :
    Owned (.ackEvents p kinds) p d (d.setEventSet p ((d.eventSet p).acknowledge (kinds.map BitVec.toNat)))
  | clearFault (p : CmdPort) (d : Device) : Owned (.clearFault p) p d d.clearFault

/-- What taking one command or event can make of the device. -/
inductive Device.Move : Instr → Device → Device → Prop where
  | unchanged (i : Instr) (d : Device) (hi : i.isReset = false) : Move i d d
  | powerOn (addr : Bool) (d : Device) : Move (.powerOn addr) d (Device.poweredOn .powerOn d.ctl.resetLow addr)
  | pinReset (d : Device) : Move .pinReset d (Device.poweredOn .pin true d.ctl.addrHigh)
  | resetRelease (addr : Bool) (d : Device) (hr : d.ctl.resetLow = true) :
    Move (.resetRelease addr) d (d.onCtl fun c => { c with resetLow := false, addrHigh := addr })
  | refused (i : Instr) (p : CmdPort) (st : Status) (d : Device) (hi : i.sender? = some p) (hr : i.isReset = false) :
    Move i d (d.setReply p (Reply.bare st))
  | answered (i : Instr) (p : CmdPort) (r : Reply) (d e : Device) (hi : i.sender? = some p) (hr : i.isReset = false)
    (hl : d.ctl.resetLow = false) (ho : Device.Owned i p d e) : Move i d (e.setReply p r)
  | wakeComplete (d : Device) (h : d.wakeDue = true) : Move .wakeComplete d d.enterStandbyAtZero
  | softResetComplete (d : Device) (h : d.softResetDue = true) : Move .softResetComplete d d.enterStandbyAtZero
  | drainEnd (d : Device) : Move .drainEnd d d.drainCheck
  | startPeriod (i : Instr) (met : Bool) (d : Device) (hi : i.plansPeriod = true) (h : d.periodDue = true) :
    Move i d (d.startPeriod met)
  | autoReset (m : PortId) (d : Device) (h : d.autoResetDue m = true) :
    Move (.autoReset m) d ((d.enterPeriod d.nextPeriod d.nextPeriod).autoReset m)
  | issueFsync (m : PortId) (x : Expectation) (d : Device) (h : d.fsyncDue m = some x) :
    Move (.fsyncIssue m) d (d.issueFsync m x)
  | openSeek (m : PortId) (d : Device) (h : d.pulseDue m = true) : Move (.resetPulseEnd m) d (d.openSeek m)
  | endSeekWindow (m : PortId) (d : Device) (h : d.seekDue m = true) :
    Move (.seekWindowEnd m) d (d.endSeekWindow m)
  | frameStart (m : PortId) (h : FrameHeader) (d : Device) : Move (.frameStart m h) d (d.takeFrameStart m h)
  | badLine (m : PortId) (y u v : List Byte) (ok : Bool) (f : Fill) (r : FaultReason) (d : Device)
    (h : (d.port m).filling = some f) : Move (.pixelLine m y u v ok) d (d.faultFill m f r)
  | goodLine (m : PortId) (y u v : List Byte) (ok : Bool) (f : Fill) (d : Device) (h : (d.port m).filling = some f) :
    Move (.pixelLine m y u v ok) d
      (d.onPort m fun q => { q with filling := some { f with lines := f.lines + 1 } })
  | frameEnd (m : PortId) (d : Device) : Move (.frameEnd m) d (d.takeFrameEnd m)
  | fillTimeout (m : PortId) (f : Fill) (d : Device) (h : (d.port m).filling = some f) :
    Move (.fillTimeout m) d (d.faultFill m f .timeout)
  | frameDeadline (m : PortId) (x : Expectation) (rest : List Expectation) (d : Device)
    (h : (d.port m).expectations = x :: rest) : Move (.frameDeadline m) d (d.passDeadline m x rest)
  | probeComplete (c : ProbeContext) (q : ProbeMeasure) (d : Device) (h : d.probe = some c) :
    Move .probeComplete d (d.completeProbe c q)
  | captureEdge (x : Edge) (d : Device) : Move (.captureEdge x) d (d.captureEdge x)
  | composeDeadline (plan : ViewPlan) (rest : List ViewPlan) (d : Device) (h : d.composeDue = some (plan, rest)) :
    Move .composeDeadline d (d.takePlan plan rest)
  | compositionComplete (c : Composition) (d : Device) (h : d.composing = some c) :
    Move .compositionComplete d (d.finishComposition c).drainCheck
  | emissionStart (r : PendingRecord) (d : Device) (h : d.emissionDue = some r) : Move .emissionStart d (d.emit r)
  | txDone (r : SendingRecord) (d : Device) (h : d.txDue = some r) : Move .txDone d (d.endEmission r).drainCheck

/-! ### The modes that take a command (Table 11-3) -/

/-- The modes that take a command: the columns of Table 11-3 with entry Y. -/
def takers : Command → List Mode
  | .getId | .getStatus => [.dormant, .waking, .standby, .streaming, .stopping, .resetting]
  | .wake => [.dormant]
  | .sleep | .portConfig | .calWrite | .outputConfig | .handoffConfig | .zoomSet | .streamStart => [.standby]
  | .softReset => [.standby, .streaming, .stopping]
  | .portEnable | .portDisable | .captureConfig => [.standby, .streaming]
  | .zoomRequest | .zoomCancel | .handoffHold | .motionSample | .streamStop | .outputFence => [.streaming]
  | .getPortStatus | .calRead | .getView | .getHandoff | .eventConfig | .getEvents | .ackEvents | .getFault
  | .clearFault => [.dormant, .standby, .streaming, .stopping]

theorem availability_eq_none_iff (m : Mode) (c : Command) : availability m c = none ↔ m ∈ takers c := by
  cases m <;> cases c <;> decide

/-! ### The outcomes are all -/

/-- R173, R174: a command is refused by Table 11-3 or answered with one of the outcomes of its owner. -/
theorem Device.takeCommand_move {i : Instr} {p : CmdPort} {c : Command} (hi : i.command? = some (p, c))
    (owner : Device → Answer) (d : Device) (ho : d.mode ∈ takers c → Device.Owned i p d (owner d).2) :
    Device.Move i d (d.takeCommand p c owner) := by
  have hs : i.sender? = some p := by cases i <;> cases hi <;> rfl
  have hr : i.isReset = false := by cases i <;> cases hi <;> rfl
  obtain ⟨-, he⟩ | ⟨-, st, -, he⟩ | ⟨hl, ha, he⟩ := Device.takeCommand_cases d p c owner
  · rw [he]; exact .unchanged i d hr
  · rw [he]; exact .refused i p st d hs hr
  · rw [he]; exact .answered i p _ d _ hs hr hl (ho ((availability_eq_none_iff _ _).mp ha))

theorem Device.configurePort_owned (p : CmdPort) (f : PortFields) (d : Device) (hm : d.mode = .standby) :
    Device.Owned (.portConfig p f) p d (d.configurePort f).2 := by
  unfold Device.configurePort
  split
  · exact .unchanged _ p d
  · next m _ =>
    split_ifs with hs
    · exact .unchanged _ p d
    · split
      · exact .unchanged _ p d
      · next c hc =>
        split_ifs with hq
        · exact .unchanged _ p d
        · exact .portConfig p f d m c hm (by tauto) hc (by omega)

theorem Device.enablePort_owned (p : CmdPort) (port : Byte) (d : Device)
    (hm : d.mode = .standby ∨ d.mode = .streaming) : Device.Owned (.portEnable p port) p d (d.enablePort port).2 := by
  unfold Device.enablePort
  split
  · exact .unchanged _ p d
  · next m _ =>
    split_ifs
    · exact .unchanged _ p d
    · exact .unchanged _ p d
    · exact .portEnable p port d m hm

theorem Device.disablePort_owned (p : CmdPort) (port : Byte) (d : Device)
    (hm : d.mode = .standby ∨ d.mode = .streaming) : Device.Owned (.portDisable p port) p d (d.disablePort port).2 := by
  unfold Device.disablePort
  split
  · exact .unchanged _ p d
  · next m _ => exact .portDisable p port d m hm

theorem Device.calWrite_owned (p : CmdPort) (f : CalFields) (d : Device) (hm : d.mode = .standby) :
    Device.Owned (.calWrite p f) p d (d.calWrite f).2 := by
  unfold Device.calWrite
  split
  · exact .unchanged _ p d
  · next m _ =>
    split
    · exact .unchanged _ p d
    · next hw =>
      split
      · exact .unchanged _ p d
      · split_ifs with hr
        · exact .unchanged _ p d
        · exact .calWrite p f d m hm (by simpa using hw) (by simpa using hr)
        · exact .unchanged _ p d

theorem Device.zoomAppend_owned (p : CmdPort) (id : Byte) (target : Word16) (n mode : Byte) (d : Device) :
    Device.Owned (.zoomRequestAppend p id target n mode) p d (d.zoomAppend id target n mode).2 := by
  unfold Device.zoomAppend
  split_ifs with hmode hq
  · exact .unchanged _ p d
  · exact .unchanged _ p d
  · exact .zoomAppend p id target n mode d (by omega)

theorem Device.holdOn_owned (p : CmdPort) (on limit : Byte) (d : Device) :
    Device.Owned (.handoffHoldOn p on limit) p d (d.holdOn on limit).2 := by
  unfold Device.holdOn
  split_ifs
  · exact .unchanged _ p d
  · exact .unchanged _ p d
  · exact .hold _ p _ d rfl

theorem Device.captureConfig_owned (p : CmdPort) (edge : Byte) (d : Device) :
    Device.Owned (.captureConfig p edge) p d (d.captureConfig edge).2 := by
  unfold Device.captureConfig
  split
  · exact .unchanged _ p d
  · exact .captureConfig p edge _ d

theorem Device.streamStart_owned (p : CmdPort) (d : Device) (hm : d.mode = .standby) :
    Device.Owned (.streamStart p) p d d.streamStart.2 := by
  unfold Device.streamStart
  split_ifs
  · exact .unchanged _ p d
  · cases ha : d.preferredCandidate with
    | none => exact .unchanged _ p d
    | some a =>
      dsimp only
      exact .streamStart p d a hm ha

theorem Device.outputFence_owned (p : CmdPort) (d : Device) :
    Device.Owned (.outputFence p) p d d.outputFence.2 := by
  unfold Device.outputFence
  cases d.link.fence with
  | some k => exact .unchanged _ p d
  | none => exact .outputFence p d

theorem Device.eventConfig_owned (p : CmdPort) (enables urgencies : Word24) (masters : Byte) (d : Device) :
    Device.Owned (.eventConfig p enables urgencies masters) p d (d.eventConfig p enables urgencies masters).2 := by
  unfold Device.eventConfig
  split_ifs
  · exact .eventConfig p enables urgencies masters d
  · exact .unchanged _ p d

theorem Device.ackEvents_owned (p : CmdPort) (kinds : List Byte) (d : Device) :
    Device.Owned (.ackEvents p kinds) p d (d.ackEvents p kinds).2 := by
  unfold Device.ackEvents
  split_ifs
  · exact .unchanged _ p d
  · exact .unchanged _ p d
  · exact .ackEvents p kinds d

theorem Device.byteQuery_owned (i : Instr) (p : CmdPort) (x : Nat) (report : PortId → Reply) (d : Device) :
    Device.Owned i p d (match PortId.ofNat? x with | none => d.refuse .badParam | some m => (report m, d)).2 := by
  split <;> exact .unchanged i p d

/-- Every command that a message spells has one of the outcomes. -/
theorem exec_command_move {i : Instr} {p : CmdPort} {c : Command} (hi : i.command? = some (p, c)) {s t : State}
    (h : exec i s = .next t) : s.dev.Move i t.dev := by
  have move := fun owner => Device.takeCommand_move hi owner s.dev
  cases i <;> cases hi <;> cases h <;> simp only [State.onDevice_dev] <;> refine move _ fun hm => ?_ <;>
    simp only [takers, List.mem_cons, List.not_mem_nil, or_false] at hm
  case getId => exact .unchanged _ _ _
  case getStatus => exact .causeRead _ _
  case wake => exact .wake _ _ hm
  case sleep => exact .sleep _ _ hm
  case softReset => exact .softReset _ _ hm
  case portConfig => exact Device.configurePort_owned _ _ _ hm
  case portEnable => exact Device.enablePort_owned _ _ _ hm
  case portDisable => exact Device.disablePort_owned _ _ _ hm
  case getPortStatus => exact Device.byteQuery_owned _ _ _ _ _
  case calWrite => exact Device.calWrite_owned _ _ _ hm
  case calRead => exact Device.byteQuery_owned _ _ _ _ _
  case outputConfig f =>
    split_ifs with hr
    · exact .outputConfig _ f _ hm hr
    · exact .unchanged _ _ _
  case handoffConfig f =>
    split_ifs with hr
    · exact .handoffConfig _ f _ hm hr
    · exact .unchanged _ _ _
  case zoomSet => exact .zoomSet _ _ _
  case zoomRequestAppend => exact Device.zoomAppend_owned _ _ _ _ _ _
  case zoomRequestReplace => exact .zoomReplace _ _ _ _ _
  case zoomCancel => exact .zoomCancel _ _
  case handoffHoldOn => exact Device.holdOn_owned _ _ _ _
  case handoffHoldOff => exact .hold _ _ 0 _ rfl
  case captureConfig => exact Device.captureConfig_owned _ _ _
  case motionSample => exact .motionSample _ _ _ _ _ hm
  case streamStart => exact Device.streamStart_owned _ _ hm
  case streamStop => exact .streamStop _ _ hm
  case outputFence => exact Device.outputFence_owned _ _
  case getView => exact .unchanged _ _ _
  case getHandoff => exact .unchanged _ _ _
  case eventConfig => exact Device.eventConfig_owned _ _ _ _ _
  case getEvents => exact .unchanged _ _ _
  case ackEvents => exact Device.ackEvents_owned _ _ _
  case getFault => exact .unchanged _ _ _
  case clearFault => exact .clearFault _ _

/-- R115: the head record whose deadline the time base has reached. -/
theorem Device.deadlineDue_eq_some {d : Device} {m : PortId} {x : Expectation × List Expectation} :
    d.deadlineDue m = some x ↔ (d.port m).expectations = x.1 :: x.2 ∧ x.1.deadline ≤ d.now := by
  unfold Device.deadlineDue
  cases (d.port m).expectations with
  | nil => simp
  | cons e rest =>
    dsimp only
    split
    · next h => exact ⟨by rintro ⟨⟩; exact ⟨rfl, h⟩, fun ⟨hx, _⟩ => by cases hx; rfl⟩
    · next h => exact ⟨by rintro ⟨⟩, fun ⟨hx, hd⟩ => by cases hx; exact absurd hd h⟩

/-- A row that is a period start is one when it is due and has its outcome. -/
theorem State.periodStartWhen_move {i : Instr} (hp : i.plansPeriod = true) (s : State) (outcome : Bool) :
    s.dev.Move i (s.periodStartWhen outcome).dev := by
  unfold State.periodStartWhen
  split
  · next hd =>
    rw [State.onDevice_dev]
    exact .startPeriod i _ _ hp (Bool.and_eq_true_iff.mp hd).1
  · exact .unchanged i _ (by cases i <;> cases hp <;> rfl)

/-- Every module, pin and clock event, and a message that is no command, has one of the outcomes. -/
theorem exec_event_move {i : Instr} (hi : i.command? = none) {s t : State} (h : exec i s = .next t) :
    s.dev.Move i t.dev := by
  cases i <;> simp only [Instr.command?, reduceCtorEq] at hi
  case powerOn => cases h; exact .powerOn _ _
  case pinReset => cases h; exact .pinReset _
  case resetRelease =>
    simp only [exec, execResetRelease] at h
    split at h <;> cases h
    · rw [State.onDevice_dev]; exact .resetRelease _ _ ‹_›
    · exact .unchanged _ _ rfl
  case unknownCommand p message =>
    cases h
    simp only [State.onDevice_dev, Device.takeMalformed]
    split
    · exact .unchanged _ _ rfl
    · split
      · exact .refused _ p _ _ rfl rfl
      · exact .unchanged _ _ rfl
  case wakeComplete =>
    simp only [exec, execWakeComplete] at h
    split at h <;> cases h
    · rw [State.onDevice_dev]; exact .wakeComplete _ ‹_›
    · exact .unchanged _ _ rfl
  case softResetComplete =>
    simp only [exec, execSoftResetComplete] at h
    split at h <;> cases h
    · rw [State.onDevice_dev]; exact .softResetComplete _ ‹_›
    · exact .unchanged _ _ rfl
  case drainEnd => cases h; rw [State.onDevice_dev]; exact .drainEnd _
  case periodStart => cases h; exact State.periodStartWhen_move rfl _ _
  case rampComplete => cases h; exact State.periodStartWhen_move rfl _ _
  case holdExpired => cases h; exact State.periodStartWhen_move rfl _ _
  case guardExpiry => cases h; exact State.periodStartWhen_move rfl _ _
  case barExpiry => cases h; exact State.periodStartWhen_move rfl _ _
  case prepareTimeout => cases h; exact State.periodStartWhen_move rfl _ _
  case probeSkip => cases h; exact State.periodStartWhen_move rfl _ _
  case blendCommit => cases h; exact State.periodStartWhen_move rfl _ _
  case autoReset =>
    simp only [exec, execAutoReset] at h
    split at h <;> cases h
    · rw [State.onDevice_dev]; exact .autoReset _ _ ‹_›
    · exact .unchanged _ _ rfl
  case fsyncIssue =>
    simp only [exec, execFsyncIssue] at h
    split at h <;> cases h
    · rw [State.onDevice_dev]; exact .issueFsync _ _ _ ‹_›
    · exact .unchanged _ _ rfl
  case resetPulseEnd =>
    simp only [exec, execResetPulseEnd] at h
    split at h <;> cases h
    · rw [State.onDevice_dev]; exact .openSeek _ _ ‹_›
    · exact .unchanged _ _ rfl
  case seekWindowEnd =>
    simp only [exec, execSeekWindowEnd] at h
    split at h <;> cases h
    · rw [State.onDevice_dev]; exact .endSeekWindow _ _ ‹_›
    · exact .unchanged _ _ rfl
  case frameStart => cases h; rw [State.onDevice_dev]; exact .frameStart _ _ _
  case pixelLine m y u v ok =>
    simp only [exec, execPixelLine] at h
    split at h
    · cases h; exact .unchanged _ _ rfl
    · next f hf =>
      split_ifs at h <;> cases h
      · rw [State.onDevice_dev]; exact .badLine m y u v ok f _ _ hf
      · rw [State.onDevice_dev]; exact .badLine m y u v ok f _ _ hf
      · exact .goodLine m y u v ok f _ hf
  case frameEnd => cases h; rw [State.onDevice_dev]; exact .frameEnd _ _
  case fillTimeout =>
    simp only [exec, execFillTimeout] at h
    split at h <;> cases h
    · next hf => rw [State.onDevice_dev]; exact .fillTimeout _ _ _ (Option.filter_eq_some_iff.mp hf).1
    · exact .unchanged _ _ rfl
  case frameDeadline =>
    simp only [exec, execFrameDeadline] at h
    split at h <;> cases h
    · next x hx => rw [State.onDevice_dev]; exact .frameDeadline _ x.1 x.2 _ (Device.deadlineDue_eq_some.mp hx).1
    · exact .unchanged _ _ rfl
  case probeComplete =>
    simp only [exec, execProbeComplete] at h
    split at h
    · cases h; exact .unchanged _ _ rfl
    · split at h <;> cases h
      rw [State.onDevice_dev]; exact .probeComplete _ _ _ ‹_›
  case captureEdge => cases h; rw [State.onDevice_dev]; exact .captureEdge _ _
  case composeDeadline =>
    simp only [exec, execComposeDeadline] at h
    split at h <;> cases h
    · next x hx => rw [State.onDevice_dev]; exact .composeDeadline x.1 x.2 _ hx
    · exact .unchanged _ _ rfl
  case compositionComplete =>
    simp only [exec, execCompositionComplete] at h
    split at h
    · cases h; exact .unchanged _ _ rfl
    · split at h <;> cases h
      exact .compositionComplete _ _ ‹_›
  case emissionStart =>
    simp only [exec, execEmissionStart] at h
    split at h <;> cases h
    · rw [State.onDevice_dev]; exact .emissionStart _ _ ‹_›
    · exact .unchanged _ _ rfl
  case txDone =>
    simp only [exec, execTxDone] at h
    split at h <;> cases h
    · rw [State.onDevice_dev]; exact .txDone _ _ ‹_›
    · exact .unchanged _ _ rfl

/-- Every command and event that answers a next state has one of the outcomes. -/
theorem exec_move {i : Instr} {s t : State} (h : exec i s = .next t) : s.dev.Move i t.dev := by
  cases hi : i.command? with
  | some x => exact exec_command_move (p := x.1) (c := x.2) hi h
  | none => exact exec_event_move hi h

/-- A step is a tick, or what the command at the front of the queue makes of the device. -/
theorem step_move {s t : State} (h : step s = .next t) : t = s.tick ∨ ∃ i, s.dev.Move i t.dev := by
  cases hp : s.pending with
  | nil => simp only [step, hp, Host.Outcome.next.injEq] at h; exact .inl h.symm
  | cons c rest => exact .inr ⟨c, exec_move (s := { s with pending := rest }) (by simpa only [step, hp] using h)⟩

/-- A tick leaves the device or advances its clock. -/
theorem State.tick_dev (s : State) :
    s.tick.dev = s.dev ∨ s.dev.clockRuns = true ∧ s.tick.dev = s.dev.advanceClock := by
  unfold State.tick
  split
  · next hr => exact .inr ⟨hr, rfl⟩
  · exact .inl rfl

end Sys2Proof.Machine
end

section
/-! PROOFS. Memory, events, queues, session and slots (O57, O60, and their part of O58): each outcome of a step keeps
each of these conditions, and no step faults where the frames fit frame memory. -/

namespace Sys2Proof.Machine

open Sys2Proof

/-! ### Frame memory -/

/-- A command or event leaves frame memory, empties it (POWER_ON), or stores a pixel line or a composed picture. -/
theorem exec_mem {i : Instr} {s t : State} (h : exec i s = .next t) :
    t.mem = s.mem ∨ t.mem = [] ∨ (∃ base w hh line y u v, t.mem = s.mem.writeLine base w hh line y u v) ∨
      ∃ c, t.mem = s.dev.composedMemory s.mem c := by
  cases hi : i.command? with
  | some x =>
    obtain ⟨owner, he⟩ := exec_command (p := x.1) (c := x.2) hi s
    rw [he] at h
    cases h
    exact .inl rfl
  | none =>
    cases i <;> simp only [Instr.command?, reduceCtorEq] at hi
    case powerOn => cases h; exact .inr (.inl rfl)
    case pixelLine m y u v ok =>
      simp only [exec, execPixelLine] at h
      split at h
      · cases h; exact .inl rfl
      · split_ifs at h <;> cases h
        · exact .inl rfl
        · exact .inl rfl
        · exact .inr (.inr (.inl ⟨_, _, _, _, y, u, v, rfl⟩))
    case compositionComplete =>
      simp only [exec, execCompositionComplete] at h
      split at h
      · cases h; exact .inl rfl
      · split at h <;> cases h
        exact .inr (.inr (.inr ⟨_, rfl⟩))
    case probeComplete =>
      simp only [exec, execProbeComplete] at h
      split at h
      · cases h; exact .inl rfl
      · split at h <;> cases h
        exact .inl rfl
    case periodStart | rampComplete | holdExpired | guardExpiry | barExpiry | prepareTimeout | probeSkip | blendCommit =>
      cases h
      simp only [State.periodStartWhen]
      split <;> exact .inl (by simp only [State.onDevice_mem])
    case pinReset | unknownCommand | drainEnd | frameStart | frameEnd | captureEdge =>
      cases h
      exact .inl (by simp only [State.onDevice_mem])
    all_goals
      simp only [exec, execResetRelease, execWakeComplete, execSoftResetComplete, execAutoReset, execFsyncIssue,
        execResetPulseEnd, execSeekWindowEnd, execFillTimeout, execFrameDeadline, execComposeDeadline,
        execEmissionStart, execTxDone] at h
      split at h <;> cases h <;> exact .inl (by simp only [State.onDevice_mem])

theorem exec_keeps_wf {i : Instr} {s t : State} (hs : s.mem.wf = true) (h : exec i s = .next t) : t.mem.wf = true := by
  obtain he | he | ⟨base, w, hh, line, y, u, v, he⟩ | ⟨c, he⟩ := exec_mem h
  · rw [he]; exact hs
  · rw [he]; rfl
  · rw [he]; exact Memory.writeLine_wf _ _ _ _ _ _ _ _ hs
  · rw [he]; exact Device.composedMemory_wf _ _ _ hs

/-- A tick leaves frame memory. -/
theorem State.tick_mem (s : State) : s.tick.mem = s.mem := by
  unfold State.tick
  split <;> rfl

/-- Settles O57: a step is a tick, which leaves memory, or writes it by operations that keep the canonical form. -/
theorem stepKeepsMemoryCanonical : Obligations.StepKeepsMemoryCanonical := by
  intro s t hs h
  cases hp : s.pending with
  | nil =>
    simp only [step, hp, Host.Outcome.next.injEq] at h
    rw [← h, State.tick_mem]
    exact hs
  | cons c rest => exact exec_keeps_wf (s := { s with pending := rest }) hs (by simpa only [step, hp] using h)

/-! ### The conditions on events, queues, session, slots and sizes -/

/-- What makes `e` of `d` keeps each of the conditions of Safety.lean on its own. -/
structure Device.KeepsRecords (d e : Device) : Prop where
  events  : d.events.coherent → e.events.coherent
  queues  : d.queuesBounded → e.queuesBounded
  session : d.sessionCoherent → e.sessionCoherent
  slots   : d.slotsCoherent → e.slotsCoherent
  fits    : d.fitsMemory → e.fitsMemory

theorem Device.KeepsRecords.refl (d : Device) : d.KeepsRecords d := ⟨id, id, id, id, id⟩

theorem Device.KeepsRecords.trans {d e f : Device} (h : d.KeepsRecords e) (g : e.KeepsRecords f) : d.KeepsRecords f :=
  ⟨g.events ∘ h.events, g.queues ∘ h.queues, g.session ∘ h.session, g.slots ∘ h.slots, g.fits ∘ h.fits⟩

theorem Device.KeepsRecords.coherent {d e : Device} (h : d.KeepsRecords e) (hd : d.Coherent) : e.Coherent :=
  ⟨h.events hd.events, h.queues hd.queues, h.session hd.session, h.slots hd.slots, h.fits hd.fits⟩

/-- A device that meets the conditions whatever was before. -/
theorem Device.Coherent.keepsRecords {d e : Device} (h : e.Coherent) : d.KeepsRecords e :=
  ⟨fun _ => h.events, fun _ => h.queues, fun _ => h.session, fun _ => h.slots, fun _ => h.fits⟩

theorem Device.PortKeeps.keepsRecords {d e : Device} (h : d.PortKeeps e) : d.KeepsRecords e :=
  ⟨h.keeps.events, h.keeps.queues, h.session, h.keeps.slots, h.keeps.fits⟩

theorem Device.Keeps.keepsRecords {d e : Device} (h : d.Keeps e) (hm : d.mode.inSession = true) : d.KeepsRecords e :=
  ⟨h.events, h.queues, h.session hm, h.slots, h.fits⟩

theorem Device.OutputKeeps.keepsRecords {d e : Device} (h : d.OutputKeeps e) : d.KeepsRecords e :=
  ⟨h.events, h.queues, h.session, h.slots, h.fits⟩

theorem Device.setReply_keepsRecords (d : Device) (p : CmdPort) (r : Reply) : d.KeepsRecords (d.setReply p r) := by
  cases p <;> exact ⟨id, id, id, id, id⟩

theorem Device.setCause_keepsRecords (d : Device) (p : CmdPort) (c : ResetCause) : d.KeepsRecords (d.setCause p c) := by
  cases p <;> exact ⟨id, id, id, id, id⟩

theorem Device.raise_keepsRecords (d : Device) (k : EventKind) (x : EventDetail) : d.KeepsRecords (d.raise k x) :=
  (Device.raise_portKeeps d k x).keepsRecords

/-- R159: an entry to a mode on the same side of the session. -/
theorem Device.enterMode_keepsRecords (d : Device) (m : Mode) (hm : m.inSession = d.mode.inSession) :
    d.KeepsRecords (d.enterMode m) := by
  refine .trans (e := d.onCtl fun c => { c with mode := m }) ⟨id, id, ?_, id, id⟩ (Device.raise_keepsRecords _ _ _)
  intro hs
  unfold Device.sessionCoherent at hs ⊢
  rw [show (d.onCtl fun c => { c with mode := m }).mode = m from rfl, hm]
  exact hs

/-- An update of the Mode Controller that leaves the mode and the session's presence, and keeps the output size in
range. -/
theorem Device.onCtl_keepsRecords (d : Device) (f : ModeController → ModeController)
    (hm : (f d.ctl).mode = d.ctl.mode) (hs : (f d.ctl).session.isSome = d.ctl.session.isSome)
    (ho : ∀ size, (f d.ctl).output.size = some size → d.ctl.output.size = some size ∨ size.1 ≤ 3840 ∧ size.2 ≤ 2160) :
    d.KeepsRecords (d.onCtl f) := by
  refine ⟨id, id, fun h => ?_, id, fun ⟨hconfig, hsize, hrest⟩ => ⟨hconfig, fun size h => ?_, hrest⟩⟩
  · unfold Device.sessionCoherent at h ⊢
    rw [show (d.onCtl f).mode = d.mode from hm, Device.onCtl_ctl, hs]
    exact h
  · exact (ho size h).elim (hsize size) id

/-- An update of the View Planner that leaves roles, hand-off state and context, and keeps the queue's bound. -/
theorem Device.onPlanner_keepsRecords (d : Device) (f : Planner → Planner)
    (hq : d.planner.queue.length ≤ 8 → (f d.planner).queue.length ≤ 8) (hr : (f d.planner).roles = d.planner.roles)
    (hs : (f d.planner).state = d.planner.state) (hc : (f d.planner).context = d.planner.context) :
    d.KeepsRecords (d.onPlanner f) := by
  refine ⟨id, fun h => ⟨hq h.1, h.2⟩, fun h => ?_, id, id⟩
  unfold Device.sessionCoherent Device.role at h ⊢
  rw [Device.onPlanner_mode, Device.onPlanner_planner, hr, hs, hc]
  exact h

theorem Device.setEventSet_keepsRecords (d : Device) (p : CmdPort) (e : EventSet)
    (h : (d.eventSet p).coherent → e.coherent) : d.KeepsRecords (d.setEventSet p e) := by
  cases p
  · exact ⟨fun hd => ⟨h hd.1, hd.2⟩, id, id, id, id⟩
  · exact ⟨fun hd => ⟨hd.1, h hd.2.1, hd.2.2⟩, id, id, id, id⟩

/-- Records changed one by one, their kinds kept and each coherent. -/
theorem EventSet.coherent_of_map {e : EventSet} (f : EventRecord → EventRecord) (um nm : Bool)
    (hk : ∀ r, (f r).kind = r.kind) (hc : ∀ r, r.coherent → (f r).coherent) (h : e.coherent) :
    EventSet.coherent { records := e.records.map f, urgentMaster := um, normalMaster := nm } := by
  obtain ⟨kinds, each⟩ := h
  refine ⟨?_, fun r hr => ?_⟩
  · rw [← kinds, List.map_map]
    exact List.map_congr_left fun r _ => hk r
  · obtain ⟨x, hx, rfl⟩ := List.mem_map.mp hr
    exact hc x (each x hx)

theorem EventSet.configure_coherent {e : EventSet} (enables urgencies : Word24) (masters : Byte) (h : e.coherent) :
    (e.configure enables urgencies masters).coherent :=
  EventSet.coherent_of_map _ _ _ (fun _ => rfl) (fun _ hr => hr) h

theorem EventSet.acknowledge_coherent {e : EventSet} (kinds : List Nat) (h : e.coherent) :
    (e.acknowledge kinds).coherent := by
  refine EventSet.coherent_of_map _ _ _ (fun r => ?_) (fun r hr => ?_) h
  · split <;> rfl
  · split
    · exact ⟨fun _ => ⟨rfl, rfl⟩, Nat.zero_le _⟩
    · exact hr

/-! ### The owners -/

theorem Device.enterStandbyFromStopping_session (d : Device) : d.enterStandbyFromStopping.sessionCoherent :=
  ⟨rfl, rfl, fun m => by cases m <;> exact ⟨fun _ => rfl, fun _ => rfl⟩, rfl⟩

/-- R169: the drain check. -/
theorem Device.drainCheck_keepsRecords (d : Device) : d.KeepsRecords d.drainCheck := by
  unfold Device.drainCheck
  split
  · refine ⟨EventUnit.raise_coherent _ _ _ _, id, fun _ => d.enterStandbyFromStopping_session,
      fun _ => Device.freeSlots_coherent, ?_⟩
    rintro ⟨hconfig, hsize, -, -, hfill, -, hcompose⟩
    exact ⟨hconfig, hsize, Device.freeSlots_ids, Device.freeBuffers_ids, hfill,
      fun _ hc => absurd hc (Option.some_ne_none _).symm, hcompose⟩
  · exact .refl d

/-- R42, R43: dropping requests. -/
theorem Device.dropRequests_keepsRecords (d : Device) (l : List ZoomEntry) (hl : l.length ≤ 8) (r : Nat) :
    d.KeepsRecords (d.dropRequests l r) := by
  have emptied := Device.onPlanner_keepsRecords d (fun p => { p with ramp := none, queue := l }) (fun _ => hl) rfl rfl rfl
  unfold Device.dropRequests
  dsimp only
  split
  · exact emptied.trans (Device.raise_keepsRecords _ _ _)
  · exact emptied

theorem ringIntake_length (ring : List MotionSample) (x : MotionSample) (h : ring.length ≤ 32) :
    (ringIntake ring x).length ≤ 32 := by
  unfold ringIntake
  split
  · rw [List.length_append, List.length_drop, List.length_singleton]; omega
  · rw [List.length_append, List.length_singleton]; omega

/-- R95: the intake of a motion sample. -/
theorem Device.motionSample_keepsRecords (d : Device) (ex ey q : Word16) : d.KeepsRecords (d.motionSample ex ey q).2 := by
  unfold Device.motionSample
  dsimp only
  have taken : ∀ x, d.KeepsRecords { d with motion := ringIntake d.motion x } := fun x =>
    ⟨id, fun h => ⟨h.1, ringIntake_length _ x h.2.1, h.2.2⟩, id, id, id⟩
  split
  · exact (taken _).trans (Device.raise_keepsRecords _ _ _)
  · exact taken _

/-- R123 at every port. -/
theorem Device.stopPorts_keepsRecords (d : Device) :
    d.KeepsRecords { d with motion := [], ports := d.ports.map ModulePort.stop } := by
  have hport : ∀ m, Device.port { d with motion := [], ports := d.ports.map ModulePort.stop } m = (d.port m).stop :=
    fun m => PerPort.get_map _ _ m
  refine ⟨id, fun h => ⟨h.1, Nat.zero_le _, fun m => ?_⟩, id, id, ?_⟩
  · rw [hport]; exact Nat.zero_le _
  · rintro ⟨hconfig, hsize, hslots, hbuffers, -, hrest⟩
    refine ⟨fun m c hc => hconfig m c ?_, hsize, hslots, hbuffers, fun m f hf => ?_, hrest⟩
    · rw [hport] at hc; exact hc
    · rw [hport] at hf; cases hf

/-- R169: STREAM_STOP. -/
theorem Device.stopStream_keepsRecords (d : Device) (hm : d.mode = .streaming) : d.KeepsRecords d.stopStream := by
  have entered := Device.enterMode_keepsRecords d .stopping (by rw [hm]; rfl)
  have abandoned := (Device.abandon_keeps (d.enterMode .stopping) .stopped d.period).keepsRecords rfl
  unfold Device.stopStream
  dsimp only
  refine entered.trans (abandoned.trans ?_)
  generalize (d.enterMode .stopping).abandon .stopped d.period = e
  have planner := Device.onPlanner_keepsRecords e Planner.stop (fun _ => Nat.zero_le _) rfl rfl rfl
  have ports := Device.stopPorts_keepsRecords (e.onPlanner Planner.stop)
  have freed : ∀ g : Device, g.KeepsRecords g.freeAllUnheld := fun g =>
    Device.PortKeeps.keepsRecords ⟨Device.freeWhere_keeps g Slot.unheld, fun _ => rfl⟩
  exact planner.trans (ports.trans ((freed _).trans ((Device.onLink_keeps _ _).keepsRecords.trans
    ((Device.cutFence_keeps _).keepsRecords.trans (Device.drainCheck_keepsRecords _)))))

/-- R79, R168: the session-start values give a coherent session. -/
theorem Device.startValues_session (e : Device) (a : PortId) (hm : e.mode = .streaming) :
    (((e.startPlanner a).startOutput).beginSession).sessionCoherent := by
  have role : ∀ n, e.startRole a n ≠ .none := by
    intro n
    unfold Device.startRole
    split_ifs <;> simp [Device.standbyRole_ne_none]
  have hs : (((e.startPlanner a).startOutput).beginSession).mode.inSession = true := by
    show e.mode.inSession = true
    rw [hm]; rfl
  refine ⟨by rw [hs]; rfl, by rw [hs]; rfl, fun n => ?_, rfl⟩
  rw [hs]
  refine ⟨fun hn => ?_, fun hn => by cases hn⟩
  cases n
  · exact absurd hn (role .p0)
  · exact absurd hn (role .p1)
  · exact absurd hn (role .p2)
  · exact absurd hn (role .p3)

/-- R165: a period start in a session. -/
theorem Device.startPeriod_keepsRecords (d : Device) (met : Bool) (hm : d.mode.inSession = true) :
    d.KeepsRecords (d.startPeriod met) :=
  .trans (e := d.enterPeriod d.nextPeriod (d.nextPeriod + 1))
    ⟨id, id, Device.enterPeriod_sessionCoherent d _ _, id, id⟩ ((Device.startPeriod_keeps d met).keepsRecords hm)

/-- R168: an accepted STREAM_START. -/
theorem Device.startStream_keepsRecords (d : Device) (a : PortId) : d.KeepsRecords (d.startStream a) := by
  have raised := Device.raise_keepsRecords (d.onCtl fun c => { c with mode := .streaming }) .modeChanged
    (EventDetail.ofPeriod (d.onCtl fun c => { c with mode := .streaming }).currentPeriod (some Mode.streaming.number))
  have session := Device.startValues_session (d.enterMode .streaming) a rfl
  have period := Device.startPeriod_keepsRecords
    ((((d.enterMode .streaming).startPlanner a).startOutput).beginSession) false rfl
  exact ⟨fun h => period.events (raised.events h), fun h => period.queues (raised.queues h),
    fun _ => period.session session, fun h => period.slots (raised.slots h), fun h => period.fits (raised.fits h)⟩

/-- R105: a port configuration of a size that fits. -/
theorem Device.setConfig_keepsRecords (d : Device) (m : PortId) (c : PortConfig) (hw : c.width ≤ 4096)
    (hh : c.height ≤ 3072) :
    d.KeepsRecords (d.onPort m fun q => { q with config := some c, newestExposure := c.exposure }) := by
  refine ⟨id, fun h => ⟨h.1, h.2.1, fun n => ?_⟩, id, id, ?_⟩
  · rw [Device.onPort_port_eq]
    split
    · exact h.2.2 m
    · exact h.2.2 n
  · rintro ⟨hconfig, hsize, hslots, hbuffers, hfill, hrest⟩
    refine ⟨fun n x hx => ?_, hsize, hslots, hbuffers, fun n f hf => ?_, hrest⟩
    · rw [Device.onPort_port_eq] at hx
      split at hx
      · cases hx; exact ⟨hw, hh⟩
      · exact hconfig n x hx
    · rw [Device.onPort_port_eq] at hf
      split at hf
      · exact hfill m f hf
      · exact hfill n f hf

theorem outputInRange_size {f : OutputFields} (h : outputInRange f = true) : f.width.toNat ≤ 3840 ∧ f.height.toNat ≤ 2160 := by
  simp only [outputInRange, evenWithin, within, Bool.and_eq_true, decide_eq_true_eq] at h
  omega

theorem Device.goToSleep_keepsRecords (d : Device) (hm : d.mode = .standby) : d.KeepsRecords d.goToSleep := by
  have down := Device.takeAllDown_portKeeps PortId.all d
  refine down.keepsRecords.trans (Device.enterMode_keepsRecords _ .dormant ?_)
  rw [down.keeps.mode, hm]; rfl

/-- Every owner keeps each of the conditions. -/
theorem Device.Owned.keepsRecords {i : Instr} {p : CmdPort} {d e : Device} (h : d.Owned i p e) : d.KeepsRecords e := by
  cases h with
  | unchanged => exact .refl d
  | causeRead => exact Device.setCause_keepsRecords d p _
  | wake _ _ hm =>
    exact (Device.onCtl_keepsRecords d (fun c => { c with enteredAt := c.timeBase }) rfl rfl fun _ h => .inl h).trans
      (Device.enterMode_keepsRecords _ .waking (by rw [show (d.onCtl _).mode = d.mode from rfl, hm]; rfl))
  | sleep _ _ hm => exact Device.goToSleep_keepsRecords d hm
  | softReset => exact (Device.softReset_coherent d p).keepsRecords
  | portConfig _ _ _ m c _ _ hc =>
    exact Device.setConfig_keepsRecords d m c (portConfigOf_fits hc).1 (portConfigOf_fits hc).2
  | portEnable => exact (Device.bringUp_portKeeps d _ _ _).keepsRecords
  | portDisable => exact (Device.disable_portKeeps d _).keepsRecords
  | calWrite => exact ⟨id, id, id, id, id⟩
  | outputConfig _ _ _ _ hr =>
    exact Device.onCtl_keepsRecords d _ rfl rfl fun size hs => .inr (by cases hs; exact outputInRange_size hr)
  | handoffConfig => exact Device.onCtl_keepsRecords d _ rfl rfl fun _ hs => .inl hs
  | zoomSet => exact Device.onPlanner_keepsRecords d _ id rfl rfl rfl
  | zoomAppend _ _ _ _ _ _ hq =>
    exact Device.onPlanner_keepsRecords d _
      (fun _ => by rw [List.length_append, List.length_singleton]; omega) rfl rfl rfl
  | zoomReplace => exact Device.dropRequests_keepsRecords d _ (by simp) _
  | zoomCancel => exact Device.dropRequests_keepsRecords d _ (by simp) _
  | hold => exact Device.onPlanner_keepsRecords d _ id rfl rfl rfl
  | captureConfig => exact Device.onPlanner_keepsRecords d _ id rfl rfl rfl
  | motionSample => exact Device.motionSample_keepsRecords d _ _ _
  | streamStart _ _ a => exact Device.startStream_keepsRecords d a
  | streamStop _ _ hm => exact Device.stopStream_keepsRecords d hm
  | outputFence => exact (Device.onLink_keeps d _).keepsRecords
  | eventConfig => exact Device.setEventSet_keepsRecords d p _ (EventSet.configure_coherent _ _ _)
  | ackEvents => exact Device.setEventSet_keepsRecords d p _ (EventSet.acknowledge_coherent _)
  | clearFault => exact ⟨fun h => ⟨h.1, h.2.1, Nat.zero_le _⟩, id, id, id, id⟩

/-! ### Every outcome of a step -/

/-- Every outcome of a command or event keeps each of the conditions. -/
theorem Device.Move.keepsRecords {i : Instr} {d e : Device} (h : d.Move i e) : d.KeepsRecords e := by
  cases h with
  | unchanged => exact .refl d
  | powerOn => exact (Device.poweredOn_coherent _ _ _).keepsRecords
  | pinReset => exact (Device.poweredOn_coherent _ _ _).keepsRecords
  | resetRelease => exact Device.onCtl_keepsRecords d _ rfl rfl fun _ hs => .inl hs
  | refused => exact Device.setReply_keepsRecords d _ _
  | answered _ _ _ _ e _ _ _ ho => exact ho.keepsRecords.trans (Device.setReply_keepsRecords e _ _)
  | wakeComplete _ hd | softResetComplete _ hd =>
    refine (Device.onCtl_keepsRecords d (fun c => { c with timeBase := 0, enteredAt := 0 }) rfl rfl
      fun _ hs => .inl hs).trans (Device.enterMode_keepsRecords _ .standby ?_)
    simp only [Device.wakeDue, Device.softResetDue, Bool.and_eq_true, decide_eq_true_eq] at hd
    rw [show (d.onCtl _).mode = d.mode from rfl, hd.1]
    rfl
  | drainEnd => exact Device.drainCheck_keepsRecords d
  | startPeriod _ met _ _ hd => exact Device.startPeriod_keepsRecords d met (Device.periodDue_inSession hd)
  | autoReset =>
    exact .trans (e := d.enterPeriod _ _) ⟨id, id, Device.enterPeriod_sessionCoherent d _ _, id, id⟩
      (Device.autoReset_portKeeps _ _).keepsRecords
  | issueFsync => exact (Device.issueFsync_portKeeps d _ _).keepsRecords
  | openSeek => exact (Device.openSeek_portKeeps d _).keepsRecords
  | endSeekWindow => exact (Device.endSeekWindow_portKeeps d _).keepsRecords
  | frameStart => exact (Device.takeFrameStart_portKeeps d _ _).keepsRecords
  | badLine => exact (Device.faultFill_portKeeps d _ _ _).keepsRecords
  | goodLine m _ _ _ _ f _ hf =>
    exact (Device.onPort_portKeeps d m _ rfl id fun g hg => .inl ⟨f, hf, by cases hg; rfl⟩).keepsRecords
  | frameEnd => exact (Device.takeFrameEnd_portKeeps d _).keepsRecords
  | fillTimeout => exact (Device.faultFill_portKeeps d _ _ _).keepsRecords
  | frameDeadline m x rest _ hx => exact (Device.passDeadline_portKeeps d m x rest hx).keepsRecords
  | probeComplete => exact (Device.completeProbe_portKeeps d _ _).keepsRecords
  | captureEdge x =>
    unfold Device.captureEdge
    split
    · exact (Device.raise_keepsRecords d _ _).trans (Device.onPlanner_keepsRecords _ _ id rfl rfl rfl)
    · exact .refl d
  | composeDeadline => exact (Device.takePlan_keeps d _ _).keepsRecords
  | compositionComplete =>
    exact (Device.finishComposition_keeps d _).keepsRecords.trans (Device.drainCheck_keepsRecords _)
  | emissionStart => exact (Device.emit_keeps d _).keepsRecords
  | txDone => exact (Device.endEmission_keeps d _).keepsRecords.trans (Device.drainCheck_keepsRecords _)

theorem Device.advanceClock_keepsRecords (d : Device) : d.KeepsRecords d.advanceClock :=
  Device.onCtl_keepsRecords d _ rfl rfl fun _ hs => .inl hs

/-- Every step keeps each of the conditions. -/
theorem step_keepsRecords {s t : State} (h : step s = .next t) : s.dev.KeepsRecords t.dev := by
  obtain rfl | ⟨i, hm⟩ := step_move h
  · obtain he | ⟨-, he⟩ := s.tick_dev
    · rw [he]; exact .refl _
    · rw [he]; exact Device.advanceClock_keepsRecords _
  · exact hm.keepsRecords

/-! ### No step faults -/

/-- Tables 0-2, 10-2: the picture of an output size that fits lies in its buffer's region, in frame memory. -/
theorem Device.fitsMemory.bufferInMemory {d : Device} (h : d.fitsMemory) {b : Nat} (hb : b < 3) :
    bufferBase b + pictureBytes d.outputSize.1 d.outputSize.2 ≤ frameMemoryBytes := by
  have hsz : d.outputSize.1 ≤ 3840 ∧ d.outputSize.2 ≤ 2160 := by
    unfold Device.outputSize
    cases ho : d.ctl.output.size with
    | none => simp
    | some size => exact h.2.1 size ho
  unfold bufferBase slotRegionBytes bufferRegionBytes pictureBytes frameMemoryBytes
  obtain ⟨hw, hh⟩ := hsz
  have luma := Nat.mul_le_mul hw hh
  have chroma := Nat.mul_le_mul (Nat.div_le_div_right (c := 2) hw) (Nat.div_le_div_right (c := 2) hh)
  norm_num at *
  omega

theorem Device.fitsMemory.usedFrameInMemory {d : Device} (h : d.fitsMemory) {o : Option Nat}
    (ho : ∀ x, o = some x → x < 12) : d.usedFrameInMemory o = true := by
  unfold Device.usedFrameInMemory
  split
  · rfl
  · next id =>
    split
    · exact h.frameInMemory _ (ho id rfl)
    · rfl

/-- A command or event taken where the sizes fit frame memory answers a next state. -/
theorem exec_answers {s : State} (h : s.dev.fitsMemory) (i : Instr) : ∃ t, exec i s = .next t := by
  have ⟨_, _, _, _, filling, probe, composing⟩ := h
  cases hi : i.command? with
  | some x =>
    obtain ⟨owner, he⟩ := exec_command (p := x.1) (c := x.2) hi s
    exact ⟨_, he⟩
  | none =>
    cases i <;> simp only [Instr.command?, reduceCtorEq] at hi
    case pixelLine m y u v ok =>
      simp only [exec, execPixelLine]
      split
      · exact ⟨_, rfl⟩
      · next f hf =>
        rw [if_pos (h.frameInMemory m (filling m f hf))]
        split_ifs <;> exact ⟨_, rfl⟩
    case probeComplete =>
      simp only [exec, execProbeComplete]
      split
      · exact ⟨_, rfl⟩
      · next c hc =>
        obtain ⟨ha, hd⟩ := probe c hc
        have fits : s.dev.probeInMemory c = true := by
          simp only [Device.probeInMemory, h.frameInMemory _ ha, h.frameInMemory _ hd, Bool.and_self]
        rw [if_pos fits]
        exact ⟨_, rfl⟩
    case compositionComplete =>
      simp only [exec, execCompositionComplete]
      split
      · exact ⟨_, rfl⟩
      · next c hc =>
        obtain ⟨hb, ha, hd⟩ := composing c hc
        have fits : s.dev.compositionInMemory c = true := by
          simp only [Device.compositionInMemory, h.usedFrameInMemory ha, h.usedFrameInMemory hd, h.bufferInMemory hb,
            Bool.and_self, decide_true]
        rw [if_pos fits]
        exact ⟨_, rfl⟩
    case powerOn | pinReset | unknownCommand | drainEnd | periodStart | rampComplete | holdExpired | guardExpiry |
        barExpiry | prepareTimeout | probeSkip | blendCommit | frameStart | frameEnd | captureEdge =>
      exact ⟨_, rfl⟩
    all_goals
      simp only [exec, execResetRelease, execWakeComplete, execSoftResetComplete, execAutoReset, execFsyncIssue,
        execResetPulseEnd, execSeekWindowEnd, execFillTimeout, execFrameDeadline, execComposeDeadline,
        execEmissionStart, execTxDone]
      split <;> exact ⟨_, rfl⟩

theorem State.Inv.device {s : State} (h : s.Inv) : s.dev.Coherent := ⟨h.events, h.queues, h.session, h.slots, h.fits⟩

/-- Settles O60: the frames and buffers fit frame memory, so the step answers a next state; that state meets the
conditions, since each outcome of a step keeps them. -/
theorem stepNeverFaults : Obligations.StepNeverFaults := by
  intro s h
  have answers : ∃ t, step s = .next t := by
    cases hp : s.pending with
    | nil => exact ⟨s.tick, by simp only [step, hp]⟩
    | cons c rest =>
      obtain ⟨t, ht⟩ := exec_answers (s := { s with pending := rest }) h.fits c
      exact ⟨t, by simpa only [step, hp] using ht⟩
  obtain ⟨t, ht⟩ := answers
  obtain ⟨events, queues, session, slots, fits⟩ := (step_keepsRecords ht).coherent h.device
  exact ⟨t, ht, stepKeepsMemoryCanonical s t h.memory ht, events, queues, session, slots, fits⟩

end Sys2Proof.Machine
end

section
/-! PROOFS. The derived bounds of a calibration record and the zoom limits (Chapter 1, R11 to R14), with O18 from
them. -/

namespace Sys2Proof.Machine

open Sys2Proof

/-! ### The bounds of a record (R11, R12) -/

/-- The least integer not below n / d, as a natural number. -/
theorem toNat_ceilDiv_spec (n : Nat) {d : Nat} (hd : 0 < d) :
    n ≤ (ceilDiv n d).toNat * d ∧ (ceilDiv n d).toNat * d < n + d := by
  obtain ⟨below, above⟩ := ceilDiv_spec (n : Int) hd
  have nonneg : 0 ≤ ceilDiv (n : Int) d := by
    by_contra hneg
    have : ceilDiv (n : Int) d * d < 0 := mul_neg_of_neg_of_pos (by omega) (by omega)
    omega
  obtain ⟨c, hc⟩ := Int.eq_ofNat_of_zero_le nonneg
  rw [hc] at below above ⊢
  rw [Int.toNat_natCast]
  rw [sub_mul, one_mul] at below
  refine ⟨by exact_mod_cast above, ?_⟩
  have : (c : Int) * d < n + d := by omega
  exact_mod_cast this

theorem Calibration.lower_spec (c : Calibration) :
    c.base * (1000 + c.margin) ≤ c.lower * 1000 ∧ c.lower * 1000 < c.base * (1000 + c.margin) + 1000 :=
  toNat_ceilDiv_spec (c.base * (1000 + c.margin)) (d := 1000) (by omega)

theorem Calibration.down_spec (c : Calibration) (h : Nat) :
    c.lower * (1000 + h) ≤ c.down h * 1000 ∧ c.down h * 1000 < c.lower * (1000 + h) + 1000 :=
  toNat_ceilDiv_spec (c.lower * (1000 + h)) (d := 1000) (by omega)

theorem Calibration.up_spec (c : Calibration) (h : Nat) :
    c.lower * (1000 + 2 * h) ≤ c.up h * 1000 ∧ c.up h * 1000 < c.lower * (1000 + 2 * h) + 1000 :=
  toNat_ceilDiv_spec (c.lower * (1000 + 2 * h)) (d := 1000) (by omega)

theorem Calibration.lower_le {c : Calibration} (hb : c.base ≤ 5000) (hg : c.margin ≤ 200) : c.lower ≤ 6000 := by
  have := c.lower_spec.2
  have := Nat.mul_le_mul hb (show 1000 + c.margin ≤ 1200 by omega)
  omega

theorem Calibration.le_lower {c : Calibration} (hb : 25 ≤ c.base) : 25 ≤ c.lower := by
  have := c.lower_spec.1
  have := Nat.mul_le_mul hb (show 1000 ≤ 1000 + c.margin by omega)
  omega

/-- R12: the thresholds in order above the lower bound, apart as the rule says. -/
theorem Calibration.thresholds {c : Calibration} {h : Nat} (hl : 1 ≤ c.lower) (hu : c.lower ≤ 6000) (hh : h ≤ 100) :
    c.lower ≤ c.down h ∧ c.down h ≤ c.up h ∧ c.up h ≤ 7200 ∧ (1 ≤ h → c.lower < c.down h) ∧
      (1000 ≤ c.lower * h → c.down h < c.up h) ∧ (h = 0 → c.down h = c.lower ∧ c.up h = c.lower) := by
  obtain ⟨d1, d2⟩ := c.down_spec h
  obtain ⟨u1, u2⟩ := c.up_spec h
  have top := Nat.mul_le_mul hu (show 2 * h ≤ 200 by omega)
  have low := Nat.mul_le_mul hl (le_refl h)
  have twice : c.lower * (2 * h) = 2 * (c.lower * h) := by ring
  rw [mul_add] at d1 d2 u1 u2
  rw [twice] at u1 u2 top
  refine ⟨by omega, by omega, by omega, fun h1 => by omega, fun h1 => by omega, ?_⟩
  rintro rfl
  rw [mul_zero] at d1 d2 u1 u2
  omega

/-! ### The zoom limits (R14) -/

/-- The least of a list and a first value. -/
theorem foldl_min_eq {l : Nat} {rest : List Nat} {x : Nat} (hx : x ∈ l :: rest) (least : ∀ y ∈ l :: rest, x ≤ y) :
    rest.foldl min l = x := by
  induction rest generalizing l with
  | nil => exact (List.mem_singleton.mp hx).symm
  | cons a rest ih =>
    rw [List.foldl_cons]
    have ha := least a (by simp)
    have hl := least l (by simp)
    refine ih ?_ fun y hy => ?_
    · rcases List.mem_cons.mp hx with rfl | hx
      · simp [Nat.min_eq_left ha]
      · rcases List.mem_cons.mp hx with rfl | hx
        · simp [Nat.min_eq_right hl]
        · exact List.mem_cons_of_mem _ hx
    · rcases List.mem_cons.mp hy with rfl | hy
      · exact le_min hl ha
      · exact least y (by simp [hy])

theorem PerPort.mem_toList {α : Type} {v : PerPort α} {x : α} : x ∈ v.toList ↔ ∃ m, v.get m = x := by
  constructor
  · intro h
    simp only [PerPort.toList, List.mem_cons, List.not_mem_nil, or_false] at h
    obtain rfl | rfl | rfl | rfl := h
    exacts [⟨.p0, rfl⟩, ⟨.p1, rfl⟩, ⟨.p2, rfl⟩, ⟨.p3, rfl⟩]
  · rintro ⟨m, rfl⟩
    cases m <;> simp [PerPort.toList, PerPort.get]

theorem Device.mem_writtenBounds {d : Device} {l : Nat} :
    l ∈ d.writtenBounds ↔ ∃ m, (d.calOf m).written = true ∧ (d.calOf m).lower = l := by
  simp only [Device.writtenBounds, List.mem_map, List.mem_filter, PerPort.mem_toList]
  constructor
  · rintro ⟨c, ⟨⟨m, rfl⟩, hw⟩, rfl⟩; exact ⟨m, hw, rfl⟩
  · rintro ⟨m, hw, rfl⟩; exact ⟨_, ⟨⟨m, rfl⟩, hw⟩, rfl⟩

theorem Device.zmin_of_unwritten {d : Device} (h : ∀ m, (d.calOf m).written = false) : d.zmin = 50 := by
  have empty : d.writtenBounds = [] := by
    refine List.eq_nil_iff_forall_not_mem.mpr fun l hl => ?_
    obtain ⟨m, hw, -⟩ := Device.mem_writtenBounds.mp hl
    simp [h m] at hw
  rw [Device.zmin, empty]

theorem Device.zmin_of_least {d : Device} {m : PortId} (hw : (d.calOf m).written = true)
    (least : ∀ n, (d.calOf n).written = true → (d.calOf m).lower ≤ (d.calOf n).lower) :
    d.zmin = max 50 (d.calOf m).lower := by
  have mem : (d.calOf m).lower ∈ d.writtenBounds := Device.mem_writtenBounds.mpr ⟨m, hw, rfl⟩
  have below : ∀ l ∈ d.writtenBounds, (d.calOf m).lower ≤ l := by
    intro l hl
    obtain ⟨n, hn, rfl⟩ := Device.mem_writtenBounds.mp hl
    exact least n hn
  unfold Device.zmin
  generalize d.writtenBounds = bounds at mem below
  cases bounds with
  | nil => cases mem
  | cons l rest => dsimp only; rw [foldl_min_eq mem below]

theorem Device.fifty_le_zmin (d : Device) : 50 ≤ d.zmin := by
  unfold Device.zmin
  split <;> omega

/-- R14: whatever the records hold, a clamped zoom is a zoom code. -/
theorem Device.clampZoom_range (d : Device) (z : Nat) : 50 ≤ d.clampZoom z ∧ d.clampZoom z ≤ 10000 := by
  have := d.fifty_le_zmin
  unfold Device.clampZoom
  omega

/-- Settles O18. -/
theorem boundsThresholdsAndLimits : Obligations.BoundsThresholdsAndLimits := by
  refine ⟨fun c h hb1 hb2 hg hh => ?_, fun d z => ⟨Device.zmin_of_unwritten, fun m => Device.zmin_of_least, fun hz => ?_⟩⟩
  · have low := Calibration.le_lower hb1
    have high := Calibration.lower_le hb2 hg
    obtain ⟨t1, t2, t3, t4, t5, t6⟩ := Calibration.thresholds (by omega) high hh
    exact ⟨c.lower_spec, c.down_spec h, c.up_spec h, low, high, t1, t2, t3, t4, t5, t6⟩
  · unfold Device.clampZoom
    omega

end Sys2Proof.Machine
end

section
/-! PROOFS. The ramp (Chapter 3, R45 to R48): the zoom of a step as a division of natural numbers, rising or falling, and
O24 from it. -/

namespace Sys2Proof.Machine

open Sys2Proof

/-! ### The zoom of a ramp step (R46) -/

theorem Ramp.zoomAt_of_rising {r : Ramp} (h : r.start ≤ r.target) (j : Nat) :
    r.zoomAt j = r.start + (r.target - r.start) * j / r.length := by
  obtain ⟨d, hd⟩ := Nat.exists_eq_add_of_le h
  have diff : ((r.target : Int) - r.start) * j = ((d * j : Nat) : Int) := by rw [hd]; push_cast; ring
  rw [Ramp.zoomAt, diff, truncDiv, ← Int.ofNat_tdiv, hd, Nat.add_sub_cancel_left]
  generalize d * j / r.length = covered
  omega

theorem Ramp.zoomAt_of_falling {r : Ramp} (h : r.target ≤ r.start) (j : Nat) :
    r.zoomAt j = r.start - (r.start - r.target) * j / r.length := by
  obtain ⟨d, hd⟩ := Nat.exists_eq_add_of_le h
  have diff : ((r.target : Int) - r.start) * j = -((d * j : Nat) : Int) := by rw [hd]; push_cast; ring
  rw [Ramp.zoomAt, diff, truncDiv, Int.neg_tdiv, ← Int.ofNat_tdiv, hd, Nat.add_sub_cancel_left]
  generalize d * j / r.length = covered
  omega

/-- The part of a distance `x` covered by step `j` of `n`: it grows with the step, is at most the whole, and is the floor
of x × j / n. -/
theorem covered_spec (x : Nat) {n j k : Nat} (hn : 1 ≤ n) (hjk : j ≤ k) (hk : k ≤ n) :
    x * j / n ≤ x * k / n ∧ x * k / n ≤ x ∧ x * n / n = x ∧ x * j / n * n ≤ x * j ∧ x * j < (x * j / n + 1) * n := by
  refine ⟨Nat.div_le_div_right (Nat.mul_le_mul_left x hjk), ?_, Nat.mul_div_cancel x hn, Nat.div_mul_le_self _ _,
    Nat.lt_mul_of_div_lt (Nat.lt_succ_self _) hn⟩
  exact Nat.div_le_of_le_mul (by rw [mul_comm n x]; exact Nat.mul_le_mul_left x hk)

/-- R46: no step of a ramp leaves the range between its start and its target. -/
theorem Ramp.zoomAt_between {r : Ramp} {lo hi j : Nat} (hn : 1 ≤ r.length) (hj : j ≤ r.length)
    (hs : lo ≤ r.start ∧ r.start ≤ hi) (ht : lo ≤ r.target ∧ r.target ≤ hi) :
    lo ≤ r.zoomAt j ∧ r.zoomAt j ≤ hi := by
  obtain h | h := Nat.le_total r.start r.target
  · have part := (covered_spec (r.target - r.start) hn (le_refl j) hj).2.1
    rw [Ramp.zoomAt_of_rising h]
    generalize (r.target - r.start) * j / r.length = covered at part ⊢
    omega
  · have part := (covered_spec (r.start - r.target) hn (le_refl j) hj).2.1
    rw [Ramp.zoomAt_of_falling h]
    generalize (r.start - r.target) * j / r.length = covered at part ⊢
    omega

theorem Ramp.zoomAt_zero (r : Ramp) : r.zoomAt 0 = r.start := by
  simp [Ramp.zoomAt, truncDiv]

theorem Ramp.zoomAt_length {r : Ramp} (hn : 1 ≤ r.length) : r.zoomAt r.length = r.target := by
  obtain h | h := Nat.le_total r.start r.target
  · rw [Ramp.zoomAt_of_rising h, Nat.mul_div_cancel _ hn]; omega
  · rw [Ramp.zoomAt_of_falling h, Nat.mul_div_cancel _ hn]; omega

/-! ### The ramp step of a planning (R45 to R48) -/

theorem Planner.rampStep_of_ramp {p : Planner} {r : Ramp} (h : p.ramp = some r) :
    p.rampStep = if r.step + 1 < r.length then
        ({ p with nominal := r.zoomAt (r.step + 1), ramp := some { r with step := r.step + 1 } }, some r.id, false)
      else ({ p with nominal := r.zoomAt (r.step + 1), ramp := none }, some r.id, true) := by
  simp only [Planner.rampStep, h]

theorem Planner.rampStep_of_idle {p : Planner} (hr : p.ramp = none) (hq : p.queue = []) : p.rampStep = (p, none, false) := by
  simp only [Planner.rampStep, hr, hq]

theorem Planner.rampStep_of_entry {p : Planner} {e : ZoomEntry} {rest : List ZoomEntry} (hr : p.ramp = none)
    (hq : p.queue = e :: rest) :
    p.rampStep = if e.length = 0 then ({ p with queue := rest, nominal := e.target }, some e.id, true)
      else ({ p with
          queue := rest
          ramp := some { id := e.id, start := p.nominal, target := e.target, length := e.length, step := 0 } },
        some e.id, false) := by
  simp only [Planner.rampStep, hr, hq]

/-- Settles O24: the cases of the step, and the zoom of a step as the floor of the part covered. -/
theorem rampStepsReachTheTarget : Obligations.RampStepsReachTheTarget := by
  refine ⟨fun pl => ⟨fun r hr hj => ?_, fun r hr hj => ?_, Planner.rampStep_of_idle, fun e rest hr hq he => ?_,
    fun e rest hr hq he => ?_⟩, fun r j k hn hjk hk => ⟨r.zoomAt_zero, Ramp.zoomAt_length hn, fun h => ?_, fun h => ?_⟩⟩
  · rw [Planner.rampStep_of_ramp hr, if_pos hj]
  · rw [Planner.rampStep_of_ramp hr, if_neg (by omega)]
  · rw [Planner.rampStep_of_entry hr hq, if_pos he]
  · rw [Planner.rampStep_of_entry hr hq, if_neg (by omega)]
  · obtain ⟨grow, whole, -, below, above⟩ := covered_spec (r.target - r.start) hn hjk hk
    rw [Ramp.zoomAt_of_rising h, Ramp.zoomAt_of_rising h, Nat.add_sub_cancel_left]
    generalize (r.target - r.start) * j / r.length = first at *
    generalize (r.target - r.start) * k / r.length = second at *
    exact ⟨by omega, by omega, by omega, below, above⟩
  · obtain ⟨grow, whole, -, below, above⟩ := covered_spec (r.start - r.target) hn hjk hk
    rw [Ramp.zoomAt_of_falling h, Ramp.zoomAt_of_falling h]
    generalize (r.start - r.target) * j / r.length = first at *
    generalize (r.start - r.target) * k / r.length = second at *
    rw [Nat.sub_sub_self (show first ≤ r.start by omega)]
    exact ⟨by omega, by omega, by omega, below, above⟩

end Sys2Proof.Machine
end

section
/-! PROOFS. How messages are answered (R173), and the power-on, the resets, waking and sleeping (Chapter 10). -/

namespace Sys2Proof.Machine

open Sys2Proof

/-! ### Commands taken and refused -/

/-- R173 step 6: a command in a mode that takes it is answered by its owner. -/
theorem exec_of_taken {i : Instr} {s : State} {p : CmdPort} {c : Command} {owner : Device → Answer}
    (h : exec i s = .next (s.onDevice fun d => d.takeCommand p c owner)) (hr : s.dev.ctl.resetLow = false)
    (ha : availability s.dev.mode c = none) :
    exec i s = .next (s.answered p (owner s.dev).1 (owner s.dev).2) := by
  rw [h, State.onDevice, Device.takeCommand_of_taken hr ha, State.answered]

/-- R173 step 6: a command whose owner refuses it changes the reply slot alone. -/
theorem exec_of_ownerRefuses {i : Instr} {s : State} {p : CmdPort} {c : Command} {owner : Device → Answer} {st : Status}
    (h : exec i s = .next (s.onDevice fun d => d.takeCommand p c owner)) (hr : s.dev.ctl.resetLow = false)
    (ha : availability s.dev.mode c = none) (ho : owner s.dev = s.dev.refuse st) :
    exec i s = .next (s.refusedWith p st) := by
  rw [exec_of_taken h hr ha, ho, Device.refuse, State.refusedWith]

/-- R173 steps 3 and 5: a command in a mode that does not take it changes the reply slot alone. -/
theorem exec_of_unavailable {i : Instr} {s : State} {p : CmdPort} {c : Command} {st : Status}
    (hi : i.command? = some (p, c)) (hr : s.dev.ctl.resetLow = false) (ha : availability s.dev.mode c = some st) :
    exec i s = .next (s.refusedWith p st) := by
  obtain ⟨owner, h⟩ := exec_command hi s
  rw [h, State.onDevice, Device.takeCommand_of_refused hr ha, State.refusedWith, State.answered]

/-- Settles O1: the step of a waiting command is that command's meaning. -/
theorem stepTakesTheFrontCommand : Obligations.StepTakesTheFrontCommand := by
  intro s c rest hs
  rw [step, hs]

/-- R173 step 3: WAKING and RESETTING take GET_ID and GET_STATUS alone. -/
theorem availability_busy {m : Mode} (hm : m = .waking ∨ m = .resetting) {c : Command} (hid : c ≠ .getId)
    (hst : c ≠ .getStatus) : availability m c = some .busy := by
  obtain rfl | rfl := hm <;> cases c <;> simp_all [availability]

/-- Settles O4: each entry of Table 11-3 that is not Y, by mode. -/
theorem modeTableRefusals : Obligations.ModeTableRefusals := by
  intro s i p c hi hr
  refine ⟨fun hm hid hst => exec_of_unavailable hi hr (availability_busy hm hid hst), fun hm hc => ?_, fun hm hc => ?_,
    fun hm hc => ?_, fun hm hc => ?_, fun hm hc => ?_, fun hm hc => ?_, fun hm hc => ?_⟩ <;>
    refine exec_of_unavailable hi hr ?_
  · rw [hm, hc]; rfl
  · rw [hm]; revert hc; cases c <;> decide
  · obtain hm | hm | hm := hm <;> rw [hm, hc] <;> rfl
  · rw [hm]; revert hc; cases c <;> decide
  · rw [hm]; revert hc; cases c <;> decide
  · rw [hm, hc]; rfl
  · rw [hm]; revert hc; cases c <;> decide

/-! ### Messages that are no well-formed command -/

/-- R173 step 4: a payload spells its code's command on every port, or none on any. Each command has its payload length in
Table 11-3: a shorter or a longer payload spells none. -/
theorem decodePayload_cases (p : CmdPort) (c : Command) (payload : List Byte) :
    (∀ q, decodePayload q c payload = none) ∨
      ∃ i, decodePayload p c payload = some i ∧ i.command? = some (p, c) := by
  cases c
  case portConfig =>
    iterate 20
      obtain _ | ⟨b, payload⟩ := payload
      · exact .inl fun _ => rfl
    obtain _ | _ := payload
    · exact .inr ⟨_, rfl, rfl⟩
    · exact .inl fun _ => rfl
  case outputConfig =>
    iterate 17
      obtain _ | ⟨b, payload⟩ := payload
      · exact .inl fun _ => rfl
    obtain _ | _ := payload
    · exact .inr ⟨_, rfl, rfl⟩
    · exact .inl fun _ => rfl
  case handoffConfig =>
    iterate 16
      obtain _ | ⟨b, payload⟩ := payload
      · exact .inl fun _ => rfl
    obtain _ | _ := payload
    · exact .inr ⟨_, rfl, rfl⟩
    · exact .inl fun _ => rfl
  case calWrite =>
    iterate 10
      obtain _ | ⟨b, payload⟩ := payload
      · exact .inl fun _ => rfl
    obtain _ | _ := payload
    · exact .inr ⟨_, rfl, rfl⟩
    · exact .inl fun _ => rfl
  case eventConfig =>
    iterate 7
      obtain _ | ⟨b, payload⟩ := payload
      · exact .inl fun _ => rfl
    obtain _ | _ := payload
    · exact .inr ⟨_, rfl, rfl⟩
    · exact .inl fun _ => rfl
  case motionSample =>
    iterate 6
      obtain _ | ⟨b, payload⟩ := payload
      · exact .inl fun _ => rfl
    obtain _ | _ := payload
    · exact .inr ⟨_, rfl, rfl⟩
    · exact .inl fun _ => rfl
  case zoomRequest =>
    obtain _ | ⟨b0, _ | ⟨b1, _ | ⟨b2, _ | ⟨b3, _ | ⟨mode, _ | _⟩⟩⟩⟩⟩ := payload
    case cons.cons.cons.cons.cons.nil =>
      by_cases hmode : mode = 1
      · exact .inr ⟨.zoomRequestReplace p b0 (word16 b1 b2) b3, if_pos hmode, rfl⟩
      · exact .inr ⟨.zoomRequestAppend p b0 (word16 b1 b2) b3 mode, if_neg hmode, rfl⟩
    all_goals exact .inl fun _ => rfl
  case zoomSet =>
    obtain _ | ⟨b0, _ | ⟨b1, _ | _⟩⟩ := payload
    case cons.cons.nil => exact .inr ⟨_, rfl, rfl⟩
    all_goals exact .inl fun _ => rfl
  case handoffHold =>
    obtain _ | ⟨on, _ | ⟨b1, _ | _⟩⟩ := payload
    case cons.cons.nil =>
      by_cases hon : on = 0
      · exact .inr ⟨.handoffHoldOff p b1, if_pos hon, rfl⟩
      · exact .inr ⟨.handoffHoldOn p on b1, if_neg hon, rfl⟩
    all_goals exact .inl fun _ => rfl
  case ackEvents =>
    by_cases hn : 1 ≤ payload.length ∧ payload.length ≤ 21
    · exact .inr ⟨.ackEvents p payload, if_pos hn, rfl⟩
    · exact .inl fun _ => if_neg hn
  case portEnable | portDisable | getPortStatus | calRead | captureConfig =>
    obtain _ | ⟨b0, _ | _⟩ := payload
    case cons.nil => exact .inr ⟨_, rfl, rfl⟩
    all_goals exact .inl fun _ => rfl
  all_goals
    obtain _ | _ := payload
    · exact .inr ⟨_, rfl, rfl⟩
    · exact .inl fun _ => rfl

/-- R173 step 4: a payload that is answered as no command spells none. -/
theorem decodePayload_eq_none_of (p : CmdPort) (c : Command) (payload message : List Byte)
    (h : (decodePayload p c payload).getD (.unknownCommand p message) = .unknownCommand p message) :
    decodePayload .a c payload = none := by
  obtain none | ⟨i, hi, hc⟩ := decodePayload_cases p c payload
  · exact none .a
  · rw [hi, Option.getD_some] at h
    rw [h] at hc
    cases hc

/-- R173: a message is taken on its own port, and is no reset. -/
theorem decodeMessage_sender (p : CmdPort) (message : List Byte) :
    (decodeMessage p message).sender? = some p ∧ (decodeMessage p message).isReset = false := by
  have command : ∀ {i : Instr} {c : Command}, i.command? = some (p, c) → i.sender? = some p ∧ i.isReset = false := by
    intro i c hi
    cases i <;> cases hi <;> exact ⟨rfl, rfl⟩
  unfold decodeMessage
  split
  · next code len payload =>
    split
    · exact ⟨rfl, rfl⟩
    · split
      · exact ⟨rfl, rfl⟩
      · next c _ =>
        obtain none | ⟨i, hi, hc⟩ := decodePayload_cases p c payload
        · rw [none p]; exact ⟨rfl, rfl⟩
        · rw [hi]; exact command hc
  · exact ⟨rfl, rfl⟩

/-- R173 step 2: the code of a command names it. -/
theorem Command.ofCode?_eq_none (n : Nat) : Command.ofCode? n = none ↔ ∀ c ∈ Command.all, c.code ≠ n := by
  rw [Command.ofCode?, List.find?_eq_none]
  simp

/-- R173 step 3: the busy modes refuse every code but those of GET_ID and GET_STATUS. -/
theorem availability_busy_iff {m : Mode} {c : Command} {n : Nat} (hc : Command.ofCode? n = some c) :
    (availability m c = some .busy ∧ (m = .waking ∨ m = .resetting)) ↔
      (m = .waking ∨ m = .resetting) ∧ n ≠ 0x01 ∧ n ≠ 0x02 := by
  have code : c.code = n := by simpa using List.find?_some hc
  subst code
  constructor
  · rintro ⟨ha, hm⟩
    refine ⟨hm, ?_⟩
    obtain rfl | rfl := hm <;> cases c <;> simp_all [availability, Command.code, Sys2Proof.Machine.taken]
  · rintro ⟨hm, h1, h2⟩
    exact ⟨availability_busy hm (by rintro rfl; exact h1 rfl) (by rintro rfl; exact h2 rfl), hm⟩

/-- A message that is no well-formed command is refused as `messageRefusal` says. -/
theorem exec_unknownCommand {p : CmdPort} {message : List Byte} {s : State} {st : Status}
    (hr : s.dev.ctl.resetLow = false) (h : messageRefusal s.dev.mode message = some st) :
    exec (.unknownCommand p message) s = .next (s.refusedWith p st) := by
  simp only [exec, execUnknownCommand, State.onDevice, Device.takeMalformed, hr, h, Bool.false_eq_true, if_false,
    State.refusedWith, State.answered]

/-- Settles O3: the refusal by the first step of R173 that fails. -/
theorem malformedMessageIsRefused : Obligations.MalformedMessageIsRefused := by
  refine ⟨fun p code s hr => exec_unknownCommand hr rfl, fun p code len payload s hr hw => exec_unknownCommand hr ?_⟩
  have spelled : decodeMessage p (code :: len :: payload) = .unknownCommand p (code :: len :: payload) := by
    simpa [Instr.wellFormed, unknownWellFormed] using hw
  unfold messageRefusal
  unfold decodeMessage at spelled
  dsimp only at spelled ⊢
  split_ifs with hlen hcode hbusy
  · rfl
  · rw [(Command.ofCode?_eq_none _).mpr hcode]
  · obtain ⟨c, hc⟩ := Option.ne_none_iff_exists'.mp (mt (Command.ofCode?_eq_none _).mp hcode)
    rw [hc]
    dsimp only
    rw [if_pos ((availability_busy_iff hc).mpr hbusy)]
  · obtain ⟨c, hc⟩ := Option.ne_none_iff_exists'.mp (mt (Command.ofCode?_eq_none _).mp hcode)
    rw [if_neg hlen, hc] at spelled
    rw [hc]
    dsimp only
    rw [if_neg (mt (availability_busy_iff hc).mp hbusy), decodePayload_eq_none_of p c payload _ spelled]
    rfl

/-! ### Identity and status -/

/-- An optional field already laid out: a presence byte, then its bytes, or zeros (R175). -/
def optionalBytes (width : Nat) : Option (List Byte) → List Byte
  | some bytes => 1 :: bytes
  | none => List.replicate (width + 1) 0

theorem optionalField_eq {α : Type} (width : Nat) (field : α → List Byte) (x : Option α) :
    optionalField width field x = optionalBytes width (x.map field) := by
  cases x <;> rfl

theorem flagByte_eq (b : Bool) : flagByte b = if b then [(1 : Byte)] else [0] := by
  cases b <;> rfl

theorem Device.quota_eq_getD (d : Device) (m : PortId) : d.quota m = ((d.port m).config.map PortConfig.quota).getD 0 := by
  unfold Device.quota
  cases (d.port m).config <;> rfl

theorem Device.motionLevel_eq_getD (d : Device) : d.motionLevel = (d.motion.getLast?.map MotionSample.q).getD 0 := by
  unfold Device.motionLevel
  cases d.motion.getLast? <;> rfl

/-- R177: 158 bytes with twelve slot records. -/
theorem Device.statusPayload_length (d : Device) (p : CmdPort) (h : d.slots.length = 12) :
    (d.statusPayload p).length = 158 := by
  have slots : (d.slots.flatMap Slot.bytes).length = 108 := by
    rw [List.length_flatMap, List.map_congr_left fun x _ => Slot.bytes_length x, List.map_const', h]
    rfl
  have quotas : (PortId.all.flatMap fun m => u8 (d.quota m) ++ u8 (d.ownedCount m)).length = 8 := rfl
  simp only [Device.statusPayload, List.length_append, slots, quotas, u8_length, u16_length, u32_length, u48_length,
    flagByte_length, optionalField_length _ u48_length, optionalField_length _ u32_length,
    optionalField_length _ MotionSample.bytes_length]

/-- Settles O6: the two replies of R177. -/
theorem identityAndStatusAreReported : Obligations.IdentityAndStatusAreReported := by
  intro p s hr
  refine ⟨exec_of_taken (i := .getId p) rfl hr ?_, exec_of_taken (i := .getStatus p) rfl hr ?_, rfl,
    s.dev.statusPayload_length p, ?_, rfl, rfl, rfl, rfl, fun q => ?_⟩
  · cases s.dev.mode <;> rfl
  · cases s.dev.mode <;> rfl
  · simp only [Device.statusPayload, optionalField_eq, flagByte_eq, Device.quota_eq_getD, Device.motionLevel_eq_getD,
      Device.currentPeriod, Option.map_map]
    refine congrArg₂ _ rfl (List.flatMap_congr fun x _ => ?_)
    simp only [Slot.bytes, optionalField_eq]
    rfl
  · cases p <;> cases q <;> rfl

/-! ### Power-on and the resets -/

/-- R182: every record of the default settings is at its default. -/
theorem EventSet.initial_atDefault : EventSet.initial.atDefault := by
  refine ⟨rfl, fun r hr => ?_, rfl, rfl⟩
  obtain ⟨k, -, rfl⟩ := List.mem_map.mp hr
  exact ⟨rfl, rfl, rfl, rfl, rfl⟩

/-- The blocks of a device at their initial values are reset. -/
theorem Device.blocksReset_of {d : Device} (planner : d.planner = Planner.initial)
    (probing : d.probe = none ∧ d.probeResult = none) (motion : d.motion = [])
    (ports : d.ports = PerPort.all ModulePort.initial) (slots : d.slots = Device.freeSlots ∧ d.composePoint = 0)
    (buffers : d.buffers = Device.freeBuffers ∧ d.composing = none) (link : d.link = OutputLink.initial)
    (session : d.ctl.session = none) (output : d.ctl.output = OutputConfig.initial)
    (handoff : d.ctl.handoff = HandoffConfig.initial) (fault : d.events.fault = EventUnit.initial.fault) :
    d.BlocksReset where
  zooms := by rw [planner]; exact ⟨rfl, rfl, rfl, rfl⟩
  handoff := by rw [planner]; exact ⟨rfl, rfl, rfl, rfl⟩
  roles m := by rw [Device.role, planner]; cases m <;> exact ⟨rfl, rfl⟩
  inputs := by rw [planner]; exact ⟨rfl, rfl, rfl, rfl⟩
  probing := probing
  samples := motion
  portState m := by
    rw [Device.port, ports, ModulePort.initial_port]
    exact ⟨rfl, rfl, rfl, rfl, rfl, rfl, rfl, rfl⟩
  counts m := by
    rw [Device.port, ports, ModulePort.initial_port]
    exact ⟨rfl, rfl, rfl, rfl, rfl, rfl, rfl, rfl, rfl⟩
  slots := by
    refine ⟨by rw [slots.1]; rfl, fun x hx => ?_, slots.2⟩
    rw [slots.1] at hx
    obtain ⟨id, -, rfl⟩ := List.mem_map.mp hx
    rfl
  buffers := by
    refine ⟨by rw [buffers.1]; rfl, fun x hx => ?_, buffers.2⟩
    rw [buffers.1] at hx
    obtain ⟨id, -, rfl⟩ := List.mem_map.mp hx
    rfl
  link := by rw [link]; exact ⟨rfl, rfl, rfl, rfl, rfl, rfl⟩
  session := session
  outputs := by rw [output]; exact ⟨rfl, rfl, rfl, rfl, rfl⟩
  handoffs := by rw [handoff]; exact ⟨rfl, rfl, rfl, rfl, rfl, rfl, rfl, rfl, rfl, rfl, rfl, rfl⟩
  captured := by rw [fault]; exact ⟨rfl, rfl⟩

/-- R160, R161: the values of power-on and of a pin reset. -/
theorem Device.poweredOn_values (cause : ResetCause) (low addr : Bool) :
    (Device.poweredOn cause low addr).PowerOnValues cause where
  blocks := Device.blocksReset_of rfl ⟨rfl, rfl⟩ rfl rfl ⟨rfl, rfl⟩ ⟨rfl, rfl⟩ rfl rfl rfl rfl rfl
  mode := ⟨rfl, rfl⟩
  records m := by cases m <;> exact ⟨rfl, rfl, rfl, rfl, rfl, rfl⟩
  replies p := by cases p <;> exact ⟨rfl, rfl, rfl⟩
  events p := by cases p <;> exact EventSet.initial_atDefault

/-- Settles O8: the state after power-on is that of POWER_ON with ADDR and RESET_N as they stand. -/
theorem powerOnStateOfEveryBlock : Obligations.PowerOnStateOfEveryBlock :=
  ⟨Device.poweredOn_values .powerOn false false, rfl, rfl, rfl⟩

/-- Settles O9: each of the three rows from its definition. -/
theorem powerOnPinResetAndRelease : Obligations.PowerOnPinResetAndRelease := by
  intro s addr
  refine ⟨⟨_, rfl, Device.poweredOn_values _ _ _, rfl, rfl, rfl, rfl, rfl⟩,
    ⟨_, rfl, Device.poweredOn_values _ _ _, rfl, rfl, rfl, rfl, rfl⟩, fun hr => ?_, fun hr => ?_⟩
  · simp only [exec, execResetRelease, hr, if_true]; rfl
  · simp only [exec, execResetRelease, hr, Bool.false_eq_true, if_false]

/-- R160: a command taken while RESET_N is low changes nothing. -/
theorem exec_command_of_resetLow {i : Instr} {p : CmdPort} {c : Command} (hi : i.command? = some (p, c)) {s : State}
    (hr : s.dev.ctl.resetLow = true) : exec i s = .next s := by
  obtain ⟨owner, h⟩ := exec_command hi s
  rw [h, State.onDevice, Device.takeCommand_of_resetLow hr]

/-- R160: an event that arrives after a pin reset changes nothing: each guard fails in the power-on state. -/
theorem exec_event_of_pinReset {i : Instr} (hi : i.command? = none) (hreset : i.isReset = false)
    (hrel : ∀ level, i ≠ .resetRelease level) {s : State} {addr : Bool}
    (hs : s.dev = Device.poweredOn .pin true addr) : exec i s = .next s := by
  obtain ⟨d, mem, idx, pending⟩ := s
  dsimp only at hs
  subst hs
  cases i
  case powerOn => cases hreset
  case pinReset => cases hreset
  case resetRelease level => exact absurd rfl (hrel level)
  case unknownCommand => rfl
  case wakeComplete => rfl
  case softResetComplete => rfl
  case drainEnd => rfl
  case periodStart => rfl
  case rampComplete => rfl
  case holdExpired => rfl
  case guardExpiry => rfl
  case barExpiry => rfl
  case prepareTimeout => rfl
  case probeSkip => rfl
  case blendCommit => rfl
  case autoReset => rfl
  case fsyncIssue m => cases m <;> rfl
  case resetPulseEnd m => cases m <;> rfl
  case seekWindowEnd m => cases m <;> rfl
  case frameStart m h => cases m <;> rfl
  case pixelLine m _ _ _ _ => cases m <;> rfl
  case frameEnd m => cases m <;> rfl
  case fillTimeout m => cases m <;> rfl
  case frameDeadline m => cases m <;> rfl
  case probeComplete => rfl
  case captureEdge x => cases x <;> rfl
  case composeDeadline => rfl
  case compositionComplete => rfl
  case emissionStart => rfl
  case txDone => rfl
  all_goals cases hi

/-- Settles O10: no command is taken, and no guard of an event holds. -/
theorem nothingActsWhileResetIsLow : Obligations.NothingActsWhileResetIsLow := by
  intro s addr hs
  have low : s.dev.ctl.resetLow = true := by rw [hs]; rfl
  refine ⟨fun i hi hrel => ?_, fun hp => ?_, fun m => ?_, fun p => ?_⟩
  · cases hc : i.command? with
    | none => exact exec_event_of_pinReset hc hi hrel hs
    | some x => exact exec_command_of_resetLow hc low
  · rw [step, hp]
    simp [State.tick, Device.clockRuns, low]
  · rw [Device.mrstAsserted, low, Bool.true_or]
  · rw [Device.attention, low]; rfl

/-! ### Waking and sleeping -/

/-- R107 at every port: OFF, with nothing awaited and nothing filled. -/
def ModulePort.off (q : ModulePort) : ModulePort :=
  { q with state := .off, lanes := none, pendingFsync := none, expectations := [], filling := none }

/-- R135 at every port: a slot that is owned and not HELD becomes FREE. -/
def Slot.released (x : Slot) : Slot := if x.owner.isSome && x.unheld then Slot.freed x.id else x

/-- R107, R135: a slot once every port has gone down. -/
theorem Slot.freed_by_every_port (x : Slot) :
    PortId.all.foldl (fun y m => if y.ownedBy m && y.unheld then y.free else y) x = x.released := by
  obtain ⟨id, state, owner, period, centre, exposure, settled, useCount⟩ := x
  cases owner with
  | none => rfl
  | some m => cases m <;> cases state <;> rfl

/-- R107, R135: one port taken down to OFF. -/
theorem Device.takeDown_off_eq (d : Device) (m : PortId) :
    d.takeDown m .off =
      { d with
        ports := d.ports.set m (d.ports.get m).off
        slots := d.slots.map fun y => if y.ownedBy m && y.unheld then y.free else y } := by
  cases m <;> rfl

/-- R107, R162: every port taken down. -/
theorem Device.takeAllDown_eq (d : Device) :
    PortId.all.foldl (fun e m => e.takeDown m .off) d =
      { d with ports := d.ports.map ModulePort.off, slots := d.slots.map Slot.released } := by
  have slots : d.slots.map Slot.released =
      ((((d.slots.map fun y => if y.ownedBy .p0 && y.unheld then y.free else y).map fun y =>
        if y.ownedBy .p1 && y.unheld then y.free else y).map fun y =>
        if y.ownedBy .p2 && y.unheld then y.free else y).map fun y =>
        if y.ownedBy .p3 && y.unheld then y.free else y) := by
    rw [List.map_map, List.map_map, List.map_map]
    exact List.map_congr_left fun x _ => (Slot.freed_by_every_port x).symm
  have ports : d.ports.map ModulePort.off =
      (((d.ports.set .p0 d.ports.p0.off).set .p1 d.ports.p1.off).set .p2 d.ports.p2.off).set .p3 d.ports.p3.off := rfl
  rw [slots, ports]
  simp only [PortId.all, List.foldl_cons, List.foldl_nil, Device.takeDown_off_eq]
  rfl

/-- Settles O11: WAKE and SLEEP as their owners leave the device. -/
theorem wakeAndSleepChangeTheMode : Obligations.WakeAndSleepChangeTheMode := by
  intro p s hr
  refine ⟨fun hm => ?_, fun hm => ?_⟩
  · rw [exec_of_taken (i := .wake p) rfl hr (by rw [hm]; rfl)]
    rfl
  · rw [exec_of_taken (i := .sleep p) rfl hr (by rw [hm]; rfl), Device.goToSleep, Device.takeAllDown_eq]
    rfl

/-- Settles O12: both entries are made exactly when due. -/
theorem timedEntriesToStandby : Obligations.TimedEntriesToStandby := by
  intro s
  refine ⟨?_, ?_⟩
  · simp only [exec, execWakeComplete, Device.wakeDue, Bool.and_eq_true, decide_eq_true_eq]
    split <;> rfl
  · simp only [exec, execSoftResetComplete, Device.softResetDue, Bool.and_eq_true, decide_eq_true_eq]
    split <;> rfl

/-! ### Soft reset -/

/-- R180: the records after an event: those of its kind raised. -/
theorem EventSet.mem_raise {e : EventSet} {k : EventKind} {x : EventDetail} {r : EventRecord} :
    r ∈ (e.raise k x).records ↔ ∃ r' ∈ e.records, (if r'.kind = k then r'.raise x else r') = r :=
  List.mem_map

theorem Device.raise_eventSet_of_normal (d : Device) {k : EventKind} (hk : k.isFault = false) (x : EventDetail)
    (q : CmdPort) : (d.raise k x).eventSet q = (d.eventSet q).raise k x := by
  cases q <;> simp only [Device.raise, EventUnit.raise, hk] <;> rfl

/-- The event set after a soft reset: MODE_CHANGED alone is pending. -/
theorem Device.softReset_eventSet (d : Device) (p q : CmdPort) :
    (d.softReset p).eventSet q = EventSet.initial.raise .modeChanged (EventDetail.ofPeriod none (some 5)) := by
  rw [Device.softReset, Device.enterMode, Device.raise_eventSet_of_normal _ rfl]
  cases q <;> rfl

theorem Device.softReset_blocks (d : Device) (p : CmdPort) (r : Reply) : ((d.softReset p).setReply p r).BlocksReset := by
  cases p <;> exact Device.blocksReset_of rfl ⟨rfl, rfl⟩ rfl rfl ⟨rfl, rfl⟩ ⟨rfl, rfl⟩ rfl rfl rfl rfl rfl

/-- A record of the default settings after one MODE_CHANGED. -/
theorem EventSet.initial_raised {x : EventDetail} {r : EventRecord} (h : r ∈ (EventSet.initial.raise .modeChanged x).records) :
    r.enabled = r.kind.isFault ∧ r.urgent = r.kind.isFault ∧
      if r.kind = .modeChanged then r.pending = true ∧ r.count = 1 ∧ r.detail = some x
      else r.pending = false ∧ r.count = 0 ∧ r.detail = none := by
  obtain ⟨r', hr', rfl⟩ := EventSet.mem_raise.mp h
  obtain ⟨k, -, rfl⟩ := List.mem_map.mp hr'
  by_cases hk : k = .modeChanged
  · subst hk; exact ⟨rfl, rfl, rfl, rfl, rfl⟩
  · have kept : (EventRecord.initial k).kind ≠ .modeChanged := hk
    rw [if_neg kept, if_neg kept]
    exact ⟨rfl, rfl, rfl, rfl, rfl⟩

/-- A record of the default settings after two MODE_CHANGED: the first detail stands. -/
theorem EventSet.initial_raised_twice {x y : EventDetail} {r : EventRecord}
    (h : r ∈ ((EventSet.initial.raise .modeChanged x).raise .modeChanged y).records) :
    if r.kind = .modeChanged then r.pending = true ∧ r.count = 2 ∧ r.detail = some x
    else r.pending = false ∧ r.count = 0 := by
  obtain ⟨r', hr', rfl⟩ := EventSet.mem_raise.mp h
  obtain ⟨-, -, once⟩ := EventSet.initial_raised hr'
  by_cases hk : r'.kind = .modeChanged
  · rw [if_pos hk] at once ⊢
    obtain ⟨pending, count, detail⟩ := once
    rw [if_pos ((EventRecord.raise_kind r' y).trans hk), EventRecord.raise, if_pos pending]
    exact ⟨pending, by rw [count]; rfl, detail⟩
  · rw [if_neg hk] at once ⊢
    rw [if_neg hk]
    exact ⟨once.1, once.2.1⟩

theorem BusTransaction.afterSoftReset_of_runsOn {p q : CmdPort} {b : Option BusTransaction}
    (h : q = p ∨ q = .m ∧ ∃ left, b = some (.read left)) : BusTransaction.afterSoftReset p q b = b := by
  obtain rfl | ⟨rfl, left, rfl⟩ := h
  · exact BusTransaction.afterSoftReset_own q b
  · exact BusTransaction.afterSoftReset_i2cRead p left

theorem BusTransaction.afterSoftReset_of_ended {p q : CmdPort} {b : Option BusTransaction}
    (h : ¬ (q = p ∨ q = .m ∧ ∃ left, b = some (.read left))) : BusTransaction.afterSoftReset p q b = none := by
  have other : p ≠ q := fun he => h (.inl he.symm)
  unfold BusTransaction.afterSoftReset
  rw [if_neg other]
  split
  · next left => exact absurd (.inr ⟨rfl, left, rfl⟩) h
  · rfl

/-- The modes that take SOFT_RESET (Table 11-3). -/
theorem availability_softReset {m : Mode} (h : m = .standby ∨ m = .streaming ∨ m = .stopping) :
    availability m .softReset = none := by
  obtain rfl | rfl | rfl := h <;> rfl

theorem Device.setReply_eventSet (d : Device) (p q : CmdPort) (r : Reply) : (d.setReply p r).eventSet q = d.eventSet q := by
  cases p <;> cases q <;> rfl

/-- Settles O13: the device after SOFT_RESET block by block, and the entry to STANDBY that follows. -/
theorem softResetValues : Obligations.SoftResetValues := by
  intro p s hr hm
  refine ⟨_, exec_of_taken (i := .softReset p) rfl hr (availability_softReset hm), rfl, rfl, rfl,
    Device.softReset_blocks _ _ _, ?_, ?_, ?_, ?_, ?_, ?_, ?_, fun q => ?_, fun q => ?_, fun u v hu hv => ?_⟩
  · cases p <;> rfl
  · cases p <;> rfl
  · cases p <;> rfl
  · cases p <;> rfl
  · cases p <;> exact hr
  · cases p <;> rfl
  · cases p <;> rfl
  · refine ⟨by cases p <;> cases q <;> rfl, fun hon => ?_, fun hoff => ?_, fun hq => ?_⟩
    · rw [← BusTransaction.afterSoftReset_of_runsOn hon]
      cases p <;> cases q <;> rfl
    · rw [← BusTransaction.afterSoftReset_of_ended hoff]
      cases p <;> cases q <;> rfl
    · cases p <;> cases q
      · exact absurd rfl hq
      · rfl
      · rfl
      · exact absurd rfl hq
  · simp only [State.answered, Device.setReply_eventSet, Device.softReset_eventSet]
    exact ⟨rfl, rfl, rfl, fun r hr => EventSet.initial_raised hr⟩
  · have due : u.dev.softResetDue = true := by
      rw [hu, Device.softResetDue, Device.mode, Device.now]
      cases p <;> simp [State.answered, Device.setReply, Device.setHost, Device.softReset, Device.enterMode]
    simp only [exec, execSoftResetComplete, due, if_true] at hv
    cases hv
    refine ⟨rfl, rfl, fun q r hr => ?_⟩
    have events : (u.onDevice Device.enterStandbyAtZero).dev.eventSet q =
        (EventSet.initial.raise .modeChanged (EventDetail.ofPeriod none (some 5))).raise .modeChanged
          (EventDetail.ofPeriod none (some 2)) := by
      rw [State.onDevice_dev, Device.enterStandbyAtZero, Device.enterMode, Device.raise_eventSet_of_normal _ rfl, hu]
      cases p <;> cases q <;> rfl
    rw [events] at hr
    exact EventSet.initial_raised_twice hr

/-! ### The configurations -/

/-- R167: the ranges of Table 10-2. -/
theorem outputInRange_iff (o : OutputFields) : outputInRange o = true ↔
    640 ≤ o.width.toNat ∧ o.width.toNat ≤ 3840 ∧ o.width.toNat % 2 = 0 ∧ 360 ≤ o.height.toNat ∧
      o.height.toNat ≤ 2160 ∧ o.height.toNat % 2 = 0 ∧ 8333 ≤ o.period.toNat ∧ o.period.toNat ≤ 66667 ∧
      1 ≤ o.latency.toNat ∧ o.latency.toNat ≤ 3 ∧ 1000 ≤ o.guard.toNat ∧ o.guard.toNat ≤ o.period.toNat / 2 ∧
      100 ≤ o.exposureRef.toNat ∧ o.exposureRef.toNat ≤ o.period.toNat := by
  simp only [outputInRange, evenWithin, within, Bool.and_eq_true, decide_eq_true_eq]
  tauto

/-- R167: the ranges of Table 10-3; the dead limit and the freeze limit are at most 255 as bytes. -/
theorem handoffInRange_iff (h : HandoffFields) : handoffInRange h = true ↔
    h.hysteresis.toNat ≤ 100 ∧ 1 ≤ h.blendLength.toNat ∧ h.blendLength.toNat ≤ 16 ∧ 1 ≤ h.prepareLimit.toNat ∧
      h.prepareLimit.toNat ≤ 60 ∧ 1 ≤ h.deferralLimit.toNat ∧ h.deferralLimit.toNat ≤ 60 ∧
      1 ≤ h.stallLimit.toNat ∧ h.stallLimit.toNat ≤ 15 ∧ 5 ≤ h.deadLimit.toNat ∧ 1 ≤ h.freezeLimit.toNat ∧
      h.guardLength.toNat ≤ 30 ∧ 1000 ≤ h.staleLimit.toNat ∧ h.staleLimit.toNat ≤ 100000 := by
  have dead : h.deadLimit.toNat ≤ 255 := Nat.le_of_lt_succ h.deadLimit.isLt
  have freeze : h.freezeLimit.toNat ≤ 255 := Nat.le_of_lt_succ h.freezeLimit.isLt
  simp only [handoffInRange, within, Bool.and_eq_true, decide_eq_true_eq]
  omega

/-- Settles O14: each command by whether its fields lie in their ranges. -/
theorem configurationsAreCheckedAndSet : Obligations.ConfigurationsAreCheckedAndSet := by
  intro p o h s hr hm
  refine ⟨?_, ?_⟩
  · split
    · next range =>
      rw [exec_of_taken (i := .outputConfig p o) rfl hr (by rw [hm]; rfl)]
      rw [if_pos ((outputInRange_iff o).mpr range)]
      rfl
    · next range =>
      exact exec_of_ownerRefuses (i := .outputConfig p o) rfl hr (by rw [hm]; rfl)
        (if_neg (mt (outputInRange_iff o).mp range))
  · split
    · next range =>
      rw [exec_of_taken (i := .handoffConfig p h) rfl hr (by rw [hm]; rfl)]
      rw [if_pos ((handoffInRange_iff h).mpr range)]
      rfl
    · next range =>
      exact exec_of_ownerRefuses (i := .handoffConfig p h) rfl hr (by rw [hm]; rfl)
        (if_neg (mt (handoffInRange_iff h).mp range))

end Sys2Proof.Machine
end

section
/-! PROOFS. What the operations leave of the settings and of the command ports: calibration records, configurations, reply
slots and bus transactions (R3, R4, R13, R104, R167, R174). -/

namespace Sys2Proof

/-- The commands whose owners change a setting or a command port beside its reply slot. -/
def Instr.changesSettings : Instr → Bool
  | .getStatus _ => true
  | .softReset _ => true
  | .portConfig _ _ => true
  | .calWrite _ _ => true
  | .outputConfig _ _ => true
  | .handoffConfig _ _ => true
  | _ => false

end Sys2Proof

namespace Sys2Proof.Machine

open Sys2Proof

/-- What the operations of the blocks leave as it is: the settings and both command ports. -/
structure Device.LeavesSettings (d e : Device) : Prop where
  hostA   : e.hostA = d.hostA
  hostM   : e.hostM = d.hostM
  cal     : e.cal = d.cal
  output  : e.ctl.output = d.ctl.output
  handoff : e.ctl.handoff = d.ctl.handoff
  config  : ∀ m, (e.port m).config = (d.port m).config

theorem Device.LeavesSettings.refl (d : Device) : d.LeavesSettings d := ⟨rfl, rfl, rfl, rfl, rfl, fun _ => rfl⟩

theorem Device.LeavesSettings.trans {d e f : Device} (h : d.LeavesSettings e) (g : e.LeavesSettings f) :
    d.LeavesSettings f :=
  ⟨g.hostA.trans h.hostA, g.hostM.trans h.hostM, g.cal.trans h.cal, g.output.trans h.output,
    g.handoff.trans h.handoff, fun m => (g.config m).trans (h.config m)⟩

theorem Device.LeavesSettings.host {d e : Device} (h : d.LeavesSettings e) (q : CmdPort) : e.host q = d.host q := by
  cases q
  · exact h.hostA
  · exact h.hostM

theorem Device.Keeps.leavesSettings {d e : Device} (h : d.Keeps e) : d.LeavesSettings e :=
  ⟨h.hostA, h.hostM, h.cal, by rw [h.ctl], by rw [h.ctl], h.config⟩

theorem Device.OutputKeeps.leavesSettings {d e : Device} (h : d.OutputKeeps e) : d.LeavesSettings e :=
  ⟨h.hostA, h.hostM, h.cal, by rw [h.ctl], by rw [h.ctl], fun m => by rw [Device.port, h.ports, Device.port]⟩

/-! ### The modes -/

theorem Device.enterMode_leavesSettings (d : Device) (m : Mode) : d.LeavesSettings (d.enterMode m) :=
  ⟨rfl, rfl, rfl, rfl, rfl, fun _ => rfl⟩

theorem Device.goToSleep_leavesSettings (d : Device) : d.LeavesSettings d.goToSleep :=
  (Device.takeAllDown_portKeeps PortId.all d).keeps.leavesSettings.trans (Device.enterMode_leavesSettings _ _)

theorem Device.drainCheck_leavesSettings (d : Device) : d.LeavesSettings d.drainCheck := by
  unfold Device.drainCheck
  split
  · exact ⟨rfl, rfl, rfl, rfl, rfl, fun _ => rfl⟩
  · exact .refl d

/-- R56, R165: a period start. -/
theorem Device.startPeriod_leavesSettings (d : Device) (met : Bool) : d.LeavesSettings (d.startPeriod met) := by
  have entered : d.LeavesSettings (d.enterPeriod d.nextPeriod (d.nextPeriod + 1)) :=
    ⟨rfl, rfl, rfl, rfl, rfl, fun _ => rfl⟩
  exact entered.trans (Device.startPeriod_keeps d met).leavesSettings

theorem Device.startStream_leavesSettings (d : Device) (a : PortId) : d.LeavesSettings (d.startStream a) := by
  have planner : ∀ (e : Device) (f : Planner → Planner), e.LeavesSettings (e.onPlanner f) := fun _ _ =>
    ⟨rfl, rfl, rfl, rfl, rfl, fun _ => rfl⟩
  have started : ∀ e : Device, e.LeavesSettings (e.startPlanner a) := fun e =>
    (planner e _).trans (Device.recomputeApplied_keeps _).leavesSettings
  have begun : ∀ e : Device, e.LeavesSettings e.startOutput.beginSession := fun _ =>
    ⟨rfl, rfl, rfl, rfl, rfl, fun _ => rfl⟩
  exact (Device.enterMode_leavesSettings d _).trans ((started _).trans ((begun _).trans
    (Device.startPeriod_leavesSettings _ _)))

theorem Device.stopStream_leavesSettings (d : Device) : d.LeavesSettings d.stopStream := by
  have stopped : ∀ e : Device,
      e.LeavesSettings { e.onPlanner Planner.stop with motion := [], ports := e.ports.map ModulePort.stop } := fun e =>
    ⟨rfl, rfl, rfl, rfl, rfl, fun m => by
      rw [Device.port, PerPort.get_map, Device.port, ModulePort.stop]⟩
  have linked : ∀ e : Device, e.LeavesSettings (e.freeAllUnheld.onLink OutputLink.stop) := fun _ =>
    ⟨rfl, rfl, rfl, rfl, rfl, fun _ => rfl⟩
  exact (Device.enterMode_leavesSettings d _).trans ((Device.abandon_keeps _ _ _).leavesSettings.trans ((stopped _).trans
    ((linked _).trans ((Device.cutFence_keeps _).leavesSettings.trans (Device.drainCheck_leavesSettings _)))))

/-! ### Commands -/

theorem Device.onPlanner_leavesSettings (d : Device) (f : Planner → Planner) : d.LeavesSettings (d.onPlanner f) :=
  ⟨rfl, rfl, rfl, rfl, rfl, fun _ => rfl⟩

theorem Device.dropRequests_leavesSettings (d : Device) (l : List ZoomEntry) (r : Nat) :
    d.LeavesSettings (d.dropRequests l r) := by
  unfold Device.dropRequests
  dsimp only
  split <;> exact ⟨rfl, rfl, rfl, rfl, rfl, fun _ => rfl⟩

theorem Device.motionSample_leavesSettings (d : Device) (ex ey q : Word16) :
    d.LeavesSettings (d.motionSample ex ey q).2 := by
  unfold Device.motionSample
  dsimp only
  split <;> exact ⟨rfl, rfl, rfl, rfl, rfl, fun _ => rfl⟩

theorem Device.setEventSet_leavesSettings (d : Device) (p : CmdPort) (e : EventSet) :
    d.LeavesSettings (d.setEventSet p e) := by
  cases p <;> exact ⟨rfl, rfl, rfl, rfl, rfl, fun _ => rfl⟩

/-- Every other command leaves the settings and both command ports. -/
theorem Device.Owned.leavesSettings {i : Instr} {p : CmdPort} {d e : Device} (h : Device.Owned i p d e)
    (hi : i.changesSettings = false) : d.LeavesSettings e := by
  cases h with
  | unchanged => exact .refl d
  | causeRead => cases hi
  | wake => exact ⟨rfl, rfl, rfl, rfl, rfl, fun _ => rfl⟩
  | sleep => exact Device.goToSleep_leavesSettings d
  | softReset => cases hi
  | portConfig => cases hi
  | portEnable => exact (Device.bringUp_portKeeps d _ _ _).keeps.leavesSettings
  | portDisable => exact (Device.disable_portKeeps d _).keeps.leavesSettings
  | calWrite => cases hi
  | outputConfig => cases hi
  | handoffConfig => cases hi
  | zoomSet => exact Device.onPlanner_leavesSettings d _
  | zoomAppend => exact Device.onPlanner_leavesSettings d _
  | zoomReplace => exact Device.dropRequests_leavesSettings d _ _
  | zoomCancel => exact Device.dropRequests_leavesSettings d _ _
  | hold => exact Device.onPlanner_leavesSettings d _
  | captureConfig => exact Device.onPlanner_leavesSettings d _
  | motionSample => exact Device.motionSample_leavesSettings d _ _ _
  | streamStart _ _ a => exact Device.startStream_leavesSettings d a
  | streamStop => exact Device.stopStream_leavesSettings d
  | outputFence => exact (Device.onLink_keeps d _).leavesSettings
  | eventConfig => exact Device.setEventSet_leavesSettings d _ _
  | ackEvents => exact Device.setEventSet_leavesSettings d _ _
  | clearFault => exact ⟨rfl, rfl, rfl, rfl, rfl, fun _ => rfl⟩

/-! ### Events -/

/-- What a command, an event or a message makes of the settings and the command ports: nothing, or a reply in its own port's
slot over what the command's owner leaves. -/
theorem Device.Move.leavesSettings_or {i : Instr} {d e : Device} (h : d.Move i e) (hi : i.isReset = false) :
    d.LeavesSettings e ∨ ∃ p r e', i.sender? = some p ∧ e = Device.setReply e' p r ∧
      (e' = d ∨ d.ctl.resetLow = false ∧ Device.Owned i p d e') := by
  cases h with
  | unchanged => exact .inl (.refl d)
  | powerOn => cases hi
  | pinReset => cases hi
  | resetRelease => exact .inl ⟨rfl, rfl, rfl, rfl, rfl, fun _ => rfl⟩
  | refused _ p st _ hs => exact .inr ⟨p, _, d, hs, rfl, .inl rfl⟩
  | answered _ p r _ e' hs _ hl ho => exact .inr ⟨p, r, e', hs, rfl, .inr ⟨hl, ho⟩⟩
  | wakeComplete => exact .inl ⟨rfl, rfl, rfl, rfl, rfl, fun _ => rfl⟩
  | softResetComplete => exact .inl ⟨rfl, rfl, rfl, rfl, rfl, fun _ => rfl⟩
  | drainEnd => exact .inl (Device.drainCheck_leavesSettings d)
  | startPeriod _ met => exact .inl (Device.startPeriod_leavesSettings d met)
  | autoReset m =>
    have entered : d.LeavesSettings (d.enterPeriod d.nextPeriod d.nextPeriod) :=
      ⟨rfl, rfl, rfl, rfl, rfl, fun _ => rfl⟩
    exact .inl (entered.trans (Device.autoReset_portKeeps _ m).keeps.leavesSettings)
  | issueFsync m x => exact .inl (Device.issueFsync_portKeeps d m x).keeps.leavesSettings
  | openSeek m => exact .inl (Device.openSeek_portKeeps d m).keeps.leavesSettings
  | endSeekWindow m => exact .inl (Device.endSeekWindow_portKeeps d m).keeps.leavesSettings
  | frameStart m h => exact .inl (Device.takeFrameStart_portKeeps d m h).keeps.leavesSettings
  | badLine m _ _ _ _ f r => exact .inl (Device.faultFill_portKeeps d m f r).keeps.leavesSettings
  | goodLine m _ _ _ _ f hf =>
    refine .inl ⟨rfl, rfl, rfl, rfl, rfl, fun n => ?_⟩
    rw [Device.onPort_port_eq]
    split
    · next hn => rw [hn]
    · rfl
  | frameEnd m => exact .inl (Device.takeFrameEnd_portKeeps d m).keeps.leavesSettings
  | fillTimeout m f => exact .inl (Device.faultFill_portKeeps d m f _).keeps.leavesSettings
  | frameDeadline m x rest _ hx => exact .inl (Device.passDeadline_portKeeps d m x rest hx).keeps.leavesSettings
  | probeComplete c q => exact .inl (Device.completeProbe_portKeeps d c q).keeps.leavesSettings
  | captureEdge =>
    refine .inl ?_
    unfold Device.captureEdge
    split
    · exact ⟨rfl, rfl, rfl, rfl, rfl, fun _ => rfl⟩
    · exact .refl d
  | composeDeadline plan rest => exact .inl (Device.takePlan_keeps d plan rest).leavesSettings
  | compositionComplete c =>
    exact .inl ((Device.finishComposition_keeps d c).leavesSettings.trans (Device.drainCheck_leavesSettings _))
  | emissionStart r => exact .inl (Device.emit_keeps d r).leavesSettings
  | txDone r => exact .inl ((Device.endEmission_keeps d r).leavesSettings.trans (Device.drainCheck_leavesSettings _))

/-! ### The settings through any row (R3, R4, R13, R104, R167) -/

/-- What `Obligations.SettingsAreKept` says of the device before and after a row. -/
def Device.SettingsKept (i : Instr) (d e : Device) : Prop :=
  (∀ m, (d.calOf m).written = true → e.calOf m = d.calOf m) ∧
    ((∀ p, i ≠ .softReset p) →
      ((∀ p f, i ≠ .outputConfig p f) → e.ctl.output = d.ctl.output) ∧
      ((∀ p f, i ≠ .handoffConfig p f) → e.ctl.handoff = d.ctl.handoff) ∧
      ((∀ p f, i ≠ .portConfig p f) → ∀ m, (e.port m).config = (d.port m).config))

theorem Device.LeavesSettings.settingsKept {d e : Device} (h : d.LeavesSettings e) (i : Instr) : d.SettingsKept i e :=
  ⟨fun m _ => by rw [Device.calOf, h.cal, Device.calOf],
    fun _ => ⟨fun _ => h.output, fun _ => h.handoff, fun _ => h.config⟩⟩

/-- A command changes a written calibration record never, and each configuration by its own command alone. -/
theorem Device.Owned.settingsKept {i : Instr} {p : CmdPort} {d e : Device} (h : Device.Owned i p d e) :
    d.SettingsKept i e := by
  cases hi : i.changesSettings with
  | false => exact (h.leavesSettings hi).settingsKept i
  | true =>
    cases h with
    | unchanged => exact (Device.LeavesSettings.refl d).settingsKept i
    | causeRead =>
      refine ⟨fun m _ => Device.setCause_calOf d p _ m, fun _ => ⟨fun _ => ?_, fun _ => ?_, fun _ m => ?_⟩⟩
      · rw [Device.setCause_ctl]
      · rw [Device.setCause_ctl]
      · rw [Device.setCause_port]
    | softReset => exact ⟨fun _ _ => rfl, fun hne => absurd rfl (hne p)⟩
    | portConfig _ f =>
      exact ⟨fun _ _ => rfl, fun _ => ⟨fun _ => rfl, fun _ => rfl, fun hne => absurd rfl (hne p f)⟩⟩
    | calWrite _ f _ m _ hw =>
      refine ⟨fun n hn => ?_, fun _ => ⟨fun _ => rfl, fun _ => rfl, fun _ _ => rfl⟩⟩
      have other : n ≠ m := by rintro rfl; rw [hw] at hn; cases hn
      exact PerPort.get_set_of_ne _ _ other
    | outputConfig _ f =>
      exact ⟨fun _ _ => rfl, fun _ => ⟨fun hne => absurd rfl (hne p f), fun _ => rfl, fun _ _ => rfl⟩⟩
    | handoffConfig _ f =>
      exact ⟨fun _ _ => rfl, fun _ => ⟨fun _ => rfl, fun hne => absurd rfl (hne p f), fun _ _ => rfl⟩⟩
    | hold _ _ _ _ hc => cases i <;> cases hi <;> cases hc
    | _ => cases hi

theorem Device.SettingsKept.setReply {i : Instr} {d e : Device} (h : d.SettingsKept i e) (p : CmdPort) (r : Reply) :
    d.SettingsKept i (e.setReply p r) := by
  obtain ⟨cal, configs⟩ := h
  refine ⟨fun m hm => (Device.setReply_calOf e p r m).trans (cal m hm), fun hs => ?_⟩
  obtain ⟨output, handoff, config⟩ := configs hs
  rw [Device.setReply_ctl]
  exact ⟨output, handoff, fun hne m => by rw [Device.setReply_port]; exact config hne m⟩

/-- Settles O16, row by row. -/
theorem settingsAreKept : Obligations.SettingsAreKept := by
  intro s t i hi h
  obtain leaves | ⟨p, r, e, -, he, kept⟩ := (exec_move h).leavesSettings_or hi
  · exact leaves.settingsKept i
  · rw [he]
    obtain rfl | ⟨-, owned⟩ := kept
    · exact ((Device.LeavesSettings.refl _).settingsKept i).setReply p r
    · exact owned.settingsKept.setReply p r

/-! ### Calibration (R6, R7) -/

/-- The port a byte names. -/
theorem PortId.ofNat?_toNat (m : PortId) : PortId.ofNat? m.toNat = some m := by
  cases m <;> rfl

theorem PortId.ofNat?_of_lt {n : Nat} (h : 3 < n) : PortId.ofNat? n = none := by
  obtain ⟨k, rfl⟩ := Nat.exists_eq_add_of_lt h
  rw [show 3 + k + 1 = k + 4 by omega]
  rfl

/-- R6 check 4: the ranges of b, s and g. -/
theorem calInRange_iff (f : CalFields) : calInRange f = true ↔
    25 ≤ f.base.toNat ∧ f.base.toNat ≤ 5000 ∧ 970 ≤ f.trim.toNat ∧ f.trim.toNat ≤ 1030 ∧ f.margin.toNat ≤ 200 := by
  simp only [calInRange, within, Bool.and_eq_true, decide_eq_true_eq]
  omega

/-- Settles O15: each check of R6 by itself, then the write. -/
theorem calWriteIsCheckedAndLocks : Obligations.CalWriteIsCheckedAndLocks := by
  intro p f s hr hm
  have mode : availability s.dev.mode .calWrite = none := by rw [hm]; rfl
  refine ⟨fun hp => exec_of_ownerRefuses (i := .calWrite p f) rfl hr mode ?_, fun m hp => ?_⟩
  · rw [Device.calWrite, PortId.ofNat?_of_lt hp]
  have named : PortId.ofNat? f.port.toNat = some m := by rw [hp, PortId.ofNat?_toNat]
  refine ⟨fun hw => exec_of_ownerRefuses (i := .calWrite p f) rfl hr mode ?_,
    fun hw hc => exec_of_ownerRefuses (i := .calWrite p f) rfl hr mode ?_, fun c hw hc => ?_⟩
  · simp only [Device.calWrite, named, hw, if_true]
  · simp only [Device.calWrite, named, hw, hc, Bool.false_eq_true, if_false]
  · split
    · next range =>
      obtain ⟨hb, hb', ht, ht', hg, hx, hy⟩ := range
      have inRange : calInRange f = true := (calInRange_iff f).mpr ⟨hb, hb', ht, ht', hg⟩
      refine ⟨s.dev.cal.set m (calibrationOf f), ?_, PerPort.get_set _ _ _, fun n hn => PerPort.get_set_of_ne _ _ hn⟩
      rw [exec_of_taken (i := .calWrite p f) rfl hr mode]
      simp only [Device.calWrite, named, hw, hc, inRange, hx, hy, Bool.false_eq_true, if_false, Bool.not_true, and_self,
        if_true]
      rfl
    · next range =>
      refine exec_of_ownerRefuses (i := .calWrite p f) rfl hr mode ?_
      simp only [Device.calWrite, named, hw, hc, Bool.false_eq_true, if_false]
      split
      · rfl
      · next hin =>
        rw [Bool.not_eq_true', Bool.not_eq_false, calInRange_iff] at hin
        obtain ⟨hb, hb', ht, ht', hg⟩ := hin
        exact if_neg fun ⟨hx, hy⟩ => range ⟨hb, hb', ht, ht', hg, hx, hy⟩

end Sys2Proof.Machine
end

section
/-! PROOFS. The zoom, hold, capture and motion commands (Chapters 3 and 6), the commands of the Event Unit and the events
themselves (Chapter 12). -/

namespace Sys2Proof.Machine

open Sys2Proof

/-! ### Zoom requests (R38 to R43) -/

/-- R40: the reply of a request taken. -/
theorem zoomReply_zoomEntry (d : Device) (id : Byte) (target : Word16) (n : Byte) (figure : Nat) :
    zoomReply (d.zoomEntry id target n) target n figure =
      { status := if d.clampZoom target.toNat = target.toNat ∧ n.toNat ≤ 240 then .accepted else .clamped,
        payload := bytesLE 2 (d.clampZoom target.toNat) ++ bytesLE 1 (min 240 n.toNat) ++ bytesLE 1 figure } := by
  have length : (d.zoomEntry id target n).length = n.toNat ↔ n.toNat ≤ 240 := min_eq_right_iff
  rw [zoomReply, if_congr (and_congr Iff.rfl length) rfl rfl]
  rfl

theorem BitVec.toNat_ne_zero_iff {w : Nat} (x : BitVec w) : x.toNat ≠ 0 ↔ x ≠ 0 :=
  not_congr (by rw [← BitVec.toNat_inj, BitVec.ofNat_eq_ofNat, BitVec.toNat_zero])

/-- Settles O22: ZOOM_SET as its owner answers it, and ZOOM_REQUEST by its two refusals. -/
theorem zoomTargetsAreClampedAndTaken : Obligations.ZoomTargetsAreClampedAndTaken := by
  refine ⟨fun p z s hr hm => exec_of_taken (i := .zoomSet p z) rfl hr (by rw [hm]; rfl),
    fun p id target n mode s hr hm => ?_⟩
  have taken : availability s.dev.mode .zoomRequest = none := by rw [hm]; rfl
  dsimp only
  rw [exec_of_taken (i := .zoomRequestAppend p id target n mode) rfl hr taken]
  simp only [Device.zoomAppend, BitVec.toNat_ne_zero_iff]
  split
  · rfl
  · split
    · rfl
    · rw [zoomReply_zoomEntry]
      rfl

theorem Planner.dropCount_eq (p : Planner) :
    p.dropCount = p.queue.length + (if p.ramp = none then 0 else 1) := by
  unfold Planner.dropCount
  cases p.ramp <;> rfl

/-- R42, R43: ZOOM_DROPPED is raised exactly when a request is dropped. -/
theorem Device.dropRequests_eq (d : Device) (left : List ZoomEntry) (reason : Nat) :
    d.dropRequests left reason =
      if d.planner.dropCount = 0 then { d with planner := { d.planner with ramp := none, queue := left } }
      else Device.raise { d with planner := { d.planner with ramp := none, queue := left } } .zoomDropped
        { port := none, requestId := d.planner.firstDropped, period := d.currentPeriod, reason := some reason,
          zooms := none } := by
  by_cases h : d.planner.dropCount = 0
  · rw [if_pos h, Device.dropRequests, if_neg (by omega)]
    rfl
  · rw [if_neg h, Device.dropRequests, if_pos (by omega)]
    rfl

/-- Settles O23: both commands drop what `Device.dropRequests` says. -/
theorem replaceAndCancelDropRequests : Obligations.ReplaceAndCancelDropRequests := by
  intro p id target n s hr hm
  dsimp only
  refine ⟨?_, ?_⟩
  · rw [exec_of_taken (i := .zoomRequestReplace p id target n) rfl hr (by rw [hm]; rfl)]
    simp only [Device.zoomReplace, zoomReply_zoomEntry, Device.dropRequests_eq, Planner.dropCount_eq]
    rfl
  · rw [exec_of_taken (i := .zoomCancel p) rfl hr (by rw [hm]; rfl)]
    simp only [Device.zoomCancel, Device.dropRequests_eq, Planner.dropCount_eq]
    rfl

/-! ### Motion samples, holds and the capture input (R94, R99, R101) -/

/-- Settles O25, by whether the ring is full. -/
theorem motionSampleIsSaturatedAndKept : Obligations.MotionSampleIsSaturatedAndKept := by
  intro p ex ey q s wo ho hr hm hsize
  dsimp only
  have size : s.dev.outputSize = (wo, ho) := by rw [Device.outputSize, hsize]; rfl
  rw [exec_of_taken (i := .motionSample p ex ey q) rfl hr (by rw [hm]; rfl)]
  simp only [Device.motionSample, size, ringIntake]
  by_cases full : s.dev.motion.length < 32
  · have room : ¬ 32 ≤ s.dev.motion.length := by omega
    simp only [full, room, if_true, if_false, List.length_append]
    rfl
  · have taken : 32 ≤ s.dev.motion.length := by omega
    simp only [full, taken, if_true, if_false, List.length_append]
    rfl

/-- The modes that take CAPTURE_CONFIG (Table 11-3). -/
theorem availability_captureConfig {m : Mode} (h : m = .standby ∨ m = .streaming) :
    availability m .captureConfig = none := by
  obtain rfl | rfl := h <;> rfl

theorem CaptureSelect.ofNat?_of_lt {n : Nat} (h : 3 < n) : CaptureSelect.ofNat? n = Option.none := by
  obtain ⟨k, rfl⟩ := Nat.exists_eq_add_of_lt h
  rw [show 3 + k + 1 = k + 4 by omega]
  rfl

theorem u8_toNat (b : Byte) : u8 b.toNat = [b] := by
  rw [u8, bytesLE, bytesLE, BitVec.ofNat_toNat, BitVec.setWidth_eq]

/-- Settles O27: HANDOFF_HOLD by its on byte and limit, CAPTURE_CONFIG by its edge byte. -/
theorem holdAndCaptureSelectionAreSet : Obligations.HoldAndCaptureSelectionAreSet := by
  refine ⟨fun p on limit s hr hm => ⟨?_, ?_⟩, fun p edge s hr hm => ?_⟩
  · rw [exec_of_taken (i := .handoffHoldOn p on limit) rfl hr (by rw [hm]; rfl)]
    have one : on.toNat = 1 ↔ on = 1 := by rw [← BitVec.toNat_inj]; rfl
    simp only [Device.holdOn, ne_eq, one]
    by_cases hon : on = 1
    · by_cases hl : limit = 0
      · rw [if_neg (not_not.mpr hon), if_pos (by rw [hl]; rfl), if_neg fun h => h.2 hl]
        rfl
      · rw [if_neg (not_not.mpr hon), if_neg ((BitVec.toNat_ne_zero_iff limit).mpr hl), if_pos ⟨hon, hl⟩,
          Device.setHold, u8_toNat]
        rfl
    · rw [if_pos hon, if_neg fun h => hon h.1]
      rfl
  · exact exec_of_taken (i := .handoffHoldOff p limit) rfl hr (by rw [hm]; rfl)
  · have mode := availability_captureConfig hm
    refine ⟨?_, ?_, ?_, ?_, fun hedge => ?_⟩
    · rintro rfl; exact exec_of_taken (i := .captureConfig p 0) rfl hr mode
    · rintro rfl; exact exec_of_taken (i := .captureConfig p 1) rfl hr mode
    · rintro rfl; exact exec_of_taken (i := .captureConfig p 2) rfl hr mode
    · rintro rfl; exact exec_of_taken (i := .captureConfig p 3) rfl hr mode
    · refine exec_of_ownerRefuses (i := .captureConfig p edge) rfl hr mode ?_
      rw [Device.captureConfig, CaptureSelect.ofNat?_of_lt hedge]

/-! ### The commands of the Event Unit (R179, R184, R186) -/

/-- The modes that take the queries and the commands of the Event Unit (Table 11-3). -/
theorem availability_query {m : Mode} (hw : m ≠ .waking) (hr : m ≠ .resetting) {c : Command}
    (hc : c ∈ [Command.getPortStatus, .calRead, .getView, .getHandoff, .eventConfig, .getEvents, .ackEvents, .getFault,
      .clearFault]) : availability m c = none := by
  revert hc
  cases m
  case waking => exact absurd rfl hw
  case resetting => exact absurd rfl hr
  all_goals cases c <;> decide

/-- A kind's number is named by a byte exactly when the byte is that number. -/
theorem EventKind.number_mem_iff (k : EventKind) (kinds : List Byte) :
    k.number ∈ kinds.map BitVec.toNat ↔ BitVec.ofNat 8 k.number ∈ kinds := by
  have small : (BitVec.ofNat 8 k.number).toNat = k.number := by cases k <;> rfl
  rw [List.mem_map]
  constructor
  · rintro ⟨b, hb, hn⟩
    rwa [← BitVec.eq_of_toNat_eq (hn.trans small.symm)]
  · exact fun h => ⟨_, h, small⟩

/-- R184: the records of the named kinds acknowledged, each kind named by its byte. -/
theorem EventSet.acknowledge_eq (e : EventSet) (kinds : List Byte) :
    e.acknowledge (kinds.map BitVec.toNat) =
      { e with
        records := e.records.map fun r =>
          if BitVec.ofNat 8 r.kind.number ∈ kinds then { r with pending := false, count := 0, detail := none } else r } := by
  unfold EventSet.acknowledge
  congr 1
  exact List.map_congr_left fun r _ => if_congr (EventKind.number_mem_iff r.kind kinds) rfl rfl

/-- Settles O54: each command by its checks. -/
theorem eventCommandsActOnOnePort : Obligations.EventCommandsActOnOnePort := by
  intro p enables urgencies masters kinds s hr hw hs
  refine ⟨?_, fun h1 h21 => ?_, exec_of_taken (i := .clearFault p) rfl hr (availability_query hw hs (by simp))⟩
  · rw [exec_of_taken (i := .eventConfig p enables urgencies masters) rfl hr (availability_query hw hs (by simp))]
    simp only [Device.eventConfig, eventFieldsValid, Bool.and_eq_true, decide_eq_true_eq, and_assoc]
    split <;> rfl
  · rw [exec_of_taken (i := .ackEvents p kinds) rfl hr (availability_query hw hs (by simp))]
    have named : (kinds.any fun k => decide (20 < k.toNat)) = true ↔ ¬ ∀ k ∈ kinds, k.toNat ≤ 20 := by simp
    rw [Device.ackEvents, if_neg (by omega), if_congr named rfl rfl, EventSet.acknowledge_eq]
    by_cases h : ∀ k ∈ kinds, k.toNat ≤ 20
    · rw [if_neg (not_not.mpr h), if_pos h]; rfl
    · rw [if_pos h, if_neg h]; rfl

/-! ### Events (R180, R181, R185) -/

/-- R180: one record through an event of a kind. -/
def EventRecord.after (k : EventKind) (x : EventDetail) (r : EventRecord) : EventRecord :=
  if r.kind ≠ k then r
  else if r.pending = true then { r with count := min 255 (r.count + 1) }
  else { r with pending := true, count := 1, detail := some x }

theorem EventSet.raise_records (e : EventSet) (k : EventKind) (x : EventDetail) :
    e.raise k x = { e with records := e.records.map (EventRecord.after k x) } := by
  unfold EventSet.raise
  congr 1
  refine List.map_congr_left fun r _ => ?_
  unfold EventRecord.after
  by_cases h : r.kind = k
  · rw [if_pos h, if_neg (not_not.mpr h)]; rfl
  · rw [if_neg h, if_pos h]

/-- R181: the attention line. -/
theorem Device.attention_iff (d : Device) (p : CmdPort) :
    d.attention p = true ↔ d.ctl.resetLow = false ∧ ∃ r ∈ (d.eventSet p).records, r.pending = true ∧ r.enabled = true ∧
      if r.urgent = true then (d.eventSet p).urgentMaster = true else (d.eventSet p).normalMaster = true := by
  simp only [Device.attention, EventSet.asserted, EventSet.drives, Bool.and_eq_true, Bool.not_eq_true', List.any_eq_true,
    and_assoc]
  refine and_congr_right fun _ => exists_congr fun r => and_congr_right fun _ => and_congr_right fun _ =>
    and_congr_right fun _ => ?_
  split <;> rfl

/-- Settles O55: by the class of the event and by whether the fault capture record is full. -/
theorem eventsAreRecordedAndCaptured : Obligations.EventsAreRecordedAndCaptured := by
  intro d k x p
  refine ⟨fun hk => ?_, fun hk c hc => ?_, fun hk hc => ?_, d.attention_iff p⟩
  · simp only [Device.raise, EventUnit.raise, hk, Bool.false_eq_true, if_false, EventUnit.record, EventSet.raise_records]
    rfl
  · simp only [Device.raise, EventUnit.raise, hk, if_true, EventUnit.record, EventUnit.capture, hc,
      EventSet.raise_records]
    rfl
  · simp only [Device.raise, EventUnit.raise, hk, if_true, EventUnit.record, EventUnit.capture, hc,
      EventSet.raise_records, List.map_map]
    rfl

/-! ### The trailer line (R154) -/

/-- R154: an optional port's byte. -/
theorem trailerPort_eq (m : Option PortId) : trailerPort m = [(m.map fun n => BitVec.ofNat 8 n.toNat).getD 0xFF] := by
  cases m <;> rfl

/-- R154: an optional window's four values, 0 where it is absent. -/
theorem trailerWindow_eq (w : Option Window) :
    trailerWindow w = u16 ((w.map Window.x0).getD 0) ++ u16 ((w.map Window.y0).getD 0) ++
      u16 ((w.map Window.w).getD 0) ++ u16 ((w.map Window.h).getD 0) := by
  cases w <;> rfl

/-- The bit of a place in a list of flags. -/
theorem bitsOf_testBit (l : List Bool) (n : Nat) : (bitsOf l).testBit n = l.getD n false := by
  induction l generalizing n with
  | nil => simp [bitsOf]
  | cons b rest ih =>
    have bit : bitsOf (b :: rest) = Nat.bit b (bitsOf rest) := by
      cases b <;> simp [bitsOf, Nat.bit_val, Nat.add_comm]
    rw [bit]
    cases n with
    | zero => rw [Nat.testBit_bit_zero]; rfl
    | succ n => rw [Nat.testBit_bit_succ, ih]; rfl

theorem bitsOf_lt (l : List Bool) : bitsOf l < 2 ^ l.length := by
  induction l with
  | nil => decide
  | cons b rest ih =>
    rw [bitsOf, List.length_cons, pow_succ]
    cases b <;> simp <;> omega

/-- Settles O53: the fields one after another, the flags bit by bit, and the zeros behind them. -/
theorem trailerLineLayout : Obligations.TrailerLineLayout := by
  refine ⟨fun t => ?_, fun f => ?_, fun d r t hr ht hw => ?_⟩
  · have layout := t.bytes_length
    refine ⟨layout, ?_⟩
    simp only [Trailer.bytes, trailerPort_eq, trailerWindow_eq, signedLE, u8, u16, u32, u48, bytesLE,
      List.cons_append, List.nil_append, List.drop_succ_cons, List.drop_zero, List.take_succ_cons, List.take_zero,
      true_and]
    refine ⟨?_, ?_, ?_, ?_, ?_⟩
    · cases t.active <;> rfl
    · cases t.dest <;> rfl
    · cases t.requestId <;> cases t.activePeriod <;> cases t.destPeriod <;> rfl
    · cases t.activeWindow <;> rfl
    · cases t.destWindow <;> rfl
  · exact ⟨bitsOf_lt _, bitsOf_testBit _ 0, bitsOf_testBit _ 1, bitsOf_testBit _ 2, bitsOf_testBit _ 3,
      bitsOf_testBit _ 4, bitsOf_testBit _ 5, bitsOf_testBit _ 6, bitsOf_testBit _ 7, bitsOf_testBit _ 8,
      bitsOf_testBit _ 9, bitsOf_testBit _ 10, bitsOf_testBit _ 11, bitsOf_testBit _ 12⟩
  · have length := t.bytes_length
    refine ⟨t.bytes ++ List.replicate (d.outputSize.1 - 53) 0, by rw [Device.trailerLine, hr, ht], ?_, ?_, ?_⟩
    · rw [List.length_append, length, List.length_replicate]; omega
    · rw [← length, List.take_left]
    · rw [← length, List.drop_left]
      exact fun b hb => List.eq_of_mem_replicate hb

/-! ### The blend schedule (R68, R91) -/

theorem blendWeight_spec {n j : Nat} (hn : n ≤ 16) (hj : 1 ≤ j) (hjn : j ≤ n) :
    blendWeight n j * (n + 1) ≤ 256 * j ∧ 256 * j < (blendWeight n j + 1) * (n + 1) ∧ 1 ≤ blendWeight n j ∧
      blendWeight n j ≤ 255 := by
  refine ⟨Nat.div_mul_le_self _ _, ?_, ?_, ?_⟩
  · rw [mul_comm (blendWeight n j + 1)]
    exact Nat.lt_mul_div_succ (256 * j) (Nat.succ_pos n)
  · exact (Nat.le_div_iff_mul_le (Nat.succ_pos n)).mpr (by omega)
  · exact Nat.le_of_lt_succ ((Nat.div_lt_iff_lt_mul (Nat.succ_pos n)).mpr (by omega))

/-- R91: for a residual that is not negative both rounding words are floors. -/
theorem residualStep_of_nonneg {n j : Nat} (hj : j ≤ n) {r : Int} (hr : 0 ≤ r) :
    residualStep n j r = 2 * (r * ((n : Int) + 1 - j) / (n + 1) / 2) := by
  have share : 0 ≤ r * ((n : Int) + 1 - j) := mul_nonneg hr (by omega)
  have part : 0 ≤ r * ((n : Int) + 1 - j) / (n + 1) := Int.ediv_nonneg share (by omega)
  rw [residualStep, truncDiv_of_nonneg share, floorDiv, evenTowardZeroDiv_eq, Nat.cast_add, Nat.cast_one,
    truncDiv_of_nonneg part, floorDiv]
  rfl

theorem residualStep_neg (n j : Nat) (r : Int) : residualStep n j (-r) = -residualStep n j r := by
  simp only [residualStep, evenTowardZeroDiv, truncDiv, neg_mul, Int.neg_tdiv, mul_neg]

theorem residualStep_spec {n j : Nat} (hj : j ≤ n) {r : Int} (hr : 0 ≤ r) :
    Even (residualStep n j r) ∧ 0 ≤ residualStep n j r ∧ residualStep n j r * (n + 1) ≤ r * (n + 1 - j) ∧
      r * (n + 1 - j) < (residualStep n j r + 2) * (n + 1) := by
  rw [residualStep_of_nonneg hj hr]
  have share : 0 ≤ r * ((n : Int) + 1 - j) := mul_nonneg hr (by omega)
  generalize r * ((n : Int) + 1 - j) = x at share ⊢
  have pos : (0 : Int) < n + 1 := by omega
  have part : 0 ≤ x / (n + 1) := Int.ediv_nonneg share (by omega)
  have below : x / (n + 1) * (n + 1) ≤ x := Int.ediv_mul_le x (by omega)
  have above : x < (x / (n + 1) + 1) * (n + 1) := Int.lt_ediv_add_one_mul_self x pos
  generalize x / ((n : Int) + 1) = t at part below above ⊢
  refine ⟨even_two_mul _, by omega, ?_, ?_⟩
  · exact (mul_le_mul_of_nonneg_right (show 2 * (t / 2) ≤ t by omega) pos.le).trans below
  · exact above.trans_le (mul_le_mul_of_nonneg_right (show t + 1 ≤ 2 * (t / 2) + 2 by omega) pos.le)

theorem residualStep_falls {n j : Nat} (hj : j + 1 ≤ n) {r : Int} (hr : 0 ≤ r) :
    residualStep n (j + 1) r ≤ residualStep n j r := by
  rw [residualStep_of_nonneg hj hr, residualStep_of_nonneg (by omega) hr]
  have share : r * ((n : Int) + 1 - (j + 1 : Nat)) ≤ r * ((n : Int) + 1 - j) :=
    mul_le_mul_of_nonneg_left (by omega) hr
  have part := Int.ediv_le_ediv (show (0 : Int) < n + 1 by omega) share
  have half := Int.ediv_le_ediv (show (0 : Int) < 2 by omega) part
  omega

theorem residualStep_zero (n j : Nat) : residualStep n j 0 = 0 := by
  simp [residualStep, evenTowardZeroDiv, truncDiv]

/-- R66, R68, R91: the blend step carries the residual step of an accepted residual record, and (0, 0) of any other. -/
theorem Device.blendStep_residual (d : Device) {c : HandoffContext} {q : Residual} (hq : c.residual = some q) :
    let b := d.blendStep c
    let n := d.ctl.handoff.blendLength
    (q.accepted = .yes → b.rx = residualStep n c.step q.rx ∧ b.ry = residualStep n c.step q.ry) ∧
      (q.accepted ≠ .yes → b.rx = 0 ∧ b.ry = 0) ∧
      (b.lowConfidence = true ↔ q.accepted = .no) ∧ (b.probeSkipped = true ↔ q.accepted = .skipped) := by
  simp only [Device.blendStep, hq, Option.map_some, Option.some.injEq, decide_eq_true_eq, Residual.offset, and_true]
  refine ⟨fun h => ?_, fun h => ?_⟩
  · rw [if_pos h]; exact ⟨rfl, rfl⟩
  · rw [if_neg h]; exact ⟨residualStep_zero _ _, residualStep_zero _ _⟩

/-- Settles O41: the weight, the residual step and the blend step that carries them. -/
theorem blendScheduleIsTheRules : Obligations.BlendScheduleIsTheRules := by
  intro n j _ hn hj hjn
  refine ⟨blendWeight_spec hn hj hjn, fun r hr => ?_, fun d c hlength hstep => ?_⟩
  · obtain ⟨even, nonneg, below, above⟩ := residualStep_spec hjn hr
    exact ⟨even, nonneg, below, above, residualStep_neg n j r, fun h => residualStep_falls h hr⟩
  · subst hlength hstep
    exact ⟨rfl, rfl, rfl, fun q hq => d.blendStep_residual hq⟩

end Sys2Proof.Machine
end

section
/-! PROOFS. The commands of the module ports and the timing of seeking (7.1 to 7.3), the scaler (2.3), and the conditions at
reset. -/

namespace Sys2Proof.Machine

open Sys2Proof

/-! ### PORT_CONFIG (R105) -/

/-- Table 7-1: the frame deadline's lower bound ceil(P/4). -/
theorem OutputConfig.firstDeadline_eq (o : OutputConfig) : o.firstDeadline = (o.period + 3) / 4 := by
  obtain ⟨below, above⟩ := toNat_ceilDiv_spec o.period (d := 4) (by omega)
  rw [OutputConfig.firstDeadline]
  omega

/-- R105 check 3: the standby policy a byte names. -/
theorem Standby.ofNat?_eq (b : Byte) :
    Standby.ofNat? b.toNat = if b = 0 ∨ b = 1 then some (if b = 0 then Standby.warm else .cold) else none := by
  by_cases h0 : b = 0
  · subst h0; rfl
  · by_cases h1 : b = 1
    · subst h1; rfl
    · rw [if_neg (not_or.mpr ⟨h0, h1⟩)]
      have n0 : b.toNat ≠ 0 := (BitVec.toNat_ne_zero_iff b).mpr h0
      have n1 : b.toNat ≠ 1 := fun h => h1 (BitVec.eq_of_toNat_eq h)
      obtain ⟨k, hk⟩ := Nat.exists_eq_add_of_le (show 2 ≤ b.toNat by omega)
      rw [hk, show 2 + k = k + 2 by omega]
      rfl

/-- R105 check 3: the ranges of Table 7-1. -/
def portFieldsInRange (o : OutputConfig) (f : PortFields) : Prop :=
  640 ≤ f.width.toNat ∧ f.width.toNat ≤ 4096 ∧ f.width.toNat % 2 = 0 ∧ 480 ≤ f.height.toNat ∧
    f.height.toNat ≤ 3072 ∧ f.height.toNat % 2 = 0 ∧ 1000 ≤ f.readout.toNat ∧ f.readout.toNat ≤ o.period ∧
    10 ≤ f.exposure.toNat ∧ f.exposure.toNat ≤ o.period ∧ (o.period + 3) / 4 ≤ f.deadline.toNat ∧
    f.deadline.toNat ≤ o.latency * o.period - o.guard ∧ 2 ≤ f.quota.toNat ∧ f.quota.toNat ≤ 6 ∧
    (f.policy = 0 ∨ f.policy = 1) ∧ (f.divisor = 2 ∨ f.divisor = 4)

/-- The configuration that fields in range carry. -/
def portConfigFrom (f : PortFields) : PortConfig :=
  { width := f.width.toNat, height := f.height.toNat, readout := f.readout.toNat, exposure := f.exposure.toNat,
    deadline := f.deadline.toNat, quota := f.quota.toNat, policy := if f.policy = 0 then .warm else .cold,
    divisor := f.divisor.toNat }

/-- The numeric ranges of `portConfigOf` as one proposition. -/
theorem portFieldsInRange_iff (o : OutputConfig) (f : PortFields) (hp : f.policy = 0 ∨ f.policy = 1) :
    (evenWithin 640 4096 f.width.toNat && evenWithin 480 3072 f.height.toNat && within 1000 o.period f.readout.toNat &&
      within 10 o.period f.exposure.toNat && within o.firstDeadline o.lastDeadline f.deadline.toNat &&
      within 2 6 f.quota.toNat && (decide (f.divisor.toNat = 2) || decide (f.divisor.toNat = 4))) = true ↔
      portFieldsInRange o f := by
  have two : f.divisor.toNat = 2 ↔ f.divisor = 2 := by rw [← BitVec.toNat_inj]; rfl
  have four : f.divisor.toNat = 4 ↔ f.divisor = 4 := by rw [← BitVec.toNat_inj]; rfl
  simp only [evenWithin, within, Bool.and_eq_true, Bool.or_eq_true, decide_eq_true_eq, two, four, portFieldsInRange]
  rw [OutputConfig.firstDeadline_eq, OutputConfig.lastDeadline]
  tauto

theorem portConfigOf_of_inRange {o : OutputConfig} {f : PortFields} (h : portFieldsInRange o f) :
    portConfigOf o f = some (portConfigFrom f) := by
  have policy : f.policy = 0 ∨ f.policy = 1 := h.2.2.2.2.2.2.2.2.2.2.2.2.2.2.1
  unfold portConfigOf
  rw [Standby.ofNat?_eq, if_pos policy]
  exact if_pos ((portFieldsInRange_iff o f policy).mpr h)

theorem portConfigOf_of_not_inRange {o : OutputConfig} {f : PortFields} (h : ¬ portFieldsInRange o f) :
    portConfigOf o f = none := by
  unfold portConfigOf
  rw [Standby.ofNat?_eq]
  by_cases policy : f.policy = 0 ∨ f.policy = 1
  · rw [if_pos policy]
    exact if_neg (mt (portFieldsInRange_iff o f policy).mp h)
  · rw [if_neg policy]

/-- Settles O29: the checks of R105 in order. -/
theorem portConfigIsCheckedAndSet : Obligations.PortConfigIsCheckedAndSet := by
  intro p f s hr hm
  have mode : availability s.dev.mode .portConfig = none := by rw [hm]; rfl
  dsimp only
  refine ⟨fun hp => exec_of_ownerRefuses (i := .portConfig p f) rfl hr mode ?_, fun m hp => ?_⟩
  · rw [Device.configurePort, PortId.ofNat?_of_lt hp]
  have named : PortId.ofNat? f.port.toNat = some m := by rw [hp, PortId.ofNat?_toNat]
  split
  · next busy =>
    refine exec_of_ownerRefuses (i := .portConfig p f) rfl hr mode ?_
    simp only [Device.configurePort, named]
    exact if_pos busy
  · next free =>
    split
    · next range =>
      have quotas := range.2.2.2.2.2.2.2.2.2.2.2.2.2.2.2.2
      have inRange : portFieldsInRange s.dev.ctl.output f := by unfold portFieldsInRange; tauto
      rw [exec_of_taken (i := .portConfig p f) rfl hr mode]
      simp only [Device.configurePort, named, if_neg free, portConfigOf_of_inRange inRange]
      rw [if_neg (show ¬ 12 < s.dev.quotaSum m (portConfigFrom f).quota from Nat.not_lt.mpr quotas)]
      rfl
    · next range =>
      refine exec_of_ownerRefuses (i := .portConfig p f) rfl hr mode ?_
      simp only [Device.configurePort, named, if_neg free]
      by_cases inRange : portFieldsInRange s.dev.ctl.output f
      · rw [portConfigOf_of_inRange inRange]
        refine if_pos (Nat.lt_of_not_le fun quotas => range ?_)
        unfold portFieldsInRange at inRange
        unfold Device.quotaSum at quotas
        tauto
      · rw [portConfigOf_of_not_inRange inRange]

/-! ### Bring-up and taking down (R107 to R109) -/

/-- R135: the slots of a port that goes down, its unheld ones freed. -/
def Device.slotsFreedFor (d : Device) (m : PortId) : List Slot :=
  d.slots.map fun x => if x.owner = some m ∧ x.unheld = true then Slot.freed x.id else x

/-- R107: a port taken down. -/
theorem Device.takeDown_eq (d : Device) (m : PortId) (st : PortState) :
    d.takeDown m st = Device.onPort { d with slots := d.slotsFreedFor m } m fun q =>
      { q with state := st, lanes := none, pendingFsync := none, expectations := [], filling := none } := by
  have slots : d.slotsFreedFor m = d.slots.map fun x => if x.ownedBy m && x.unheld then x.free else x := by
    refine List.map_congr_left fun x _ => if_congr ?_ rfl rfl
    rw [Bool.and_eq_true, Slot.ownedBy_iff]
  rw [slots]
  cases m <;> rfl

/-- R108: bring-up of a configured port. -/
theorem Device.bringUp_eq (d : Device) (m : PortId) {c : PortConfig} (hc : (d.port m).config = some c) (a : Allowance)
    (cause : DownCause) :
    d.bringUp m a cause =
      Device.reportDownIf (Device.onPort { d with slots := d.slotsFreedFor m } m fun q =>
        { q with state := .resetting, lanes := none, pendingFsync := none, expectations := [], filling := none,
                 since := d.now, newestExposure := c.exposure, badPeriods := 0, goodRun := 0, stallAge := 0,
                 allowance := a }) m (d.port m).hasLink cause := by
  simp only [Device.bringUp, hc, Device.takeDown_eq]
  cases m <;> rfl

/-- The modes that take PORT_ENABLE and PORT_DISABLE (Table 11-3). -/
theorem availability_portPower {m : Mode} (h : m = .standby ∨ m = .streaming) :
    availability m .portEnable = none ∧ availability m .portDisable = none := by
  obtain rfl | rfl := h <;> exact ⟨rfl, rfl⟩

/-- Settles O30: the refusals, and a port taken down with its report. -/
theorem portEnableAndDisable : Obligations.PortEnableAndDisable := by
  intro p port s hr hm
  obtain ⟨enable, disable⟩ := availability_portPower hm
  refine ⟨fun hp => ⟨exec_of_ownerRefuses (i := .portEnable p port) rfl hr enable ?_,
    exec_of_ownerRefuses (i := .portDisable p port) rfl hr disable ?_⟩, fun m hp => ?_⟩
  · rw [Device.enablePort, PortId.ofNat?_of_lt hp]
  · rw [Device.disablePort, PortId.ofNat?_of_lt hp]
  have named : PortId.ofNat? port.toNat = some m := by rw [hp, PortId.ofNat?_toNat]
  refine ⟨fun hc => exec_of_ownerRefuses (i := .portEnable p port) rfl hr enable ?_,
    fun c hc => ⟨fun hs => ?_, fun hs1 hs2 => ?_⟩, ?_⟩
  · simp only [Device.enablePort, named]
    exact if_pos hc
  · rw [exec_of_taken (i := .portEnable p port) rfl hr enable]
    simp only [Device.enablePort, named, hc, reduceCtorEq, if_false, if_pos hs]
    rfl
  · rw [exec_of_taken (i := .portEnable p port) rfl hr enable]
    simp only [Device.enablePort, named, hc, reduceCtorEq, if_false, if_neg (not_or.mpr ⟨hs1, hs2⟩),
      Device.bringUp_eq s.dev m hc]
    rfl
  · rw [exec_of_taken (i := .portDisable p port) rfl hr disable]
    simp only [Device.disablePort, named, Device.disable, Device.takeDown_eq]
    rfl

/-! ### Seeking (R110, R111, R107) -/

/-- Settles O31: the two timed rows by whether they are due, and the MRST line by the port's state. -/
theorem pulsesAndSeekWindowsAreTimed : Obligations.PulsesAndSeekWindowsAreTimed := by
  intro m s
  dsimp only
  refine ⟨?_, fun hs ht hw => ?_, fun hs ht hw => ?_, fun hn => ?_, fun hr => ?_⟩
  · simp only [exec, execResetPulseEnd, Device.pulseDue, Bool.and_eq_true, decide_eq_true_eq]
    split
    · cases m <;> rfl
    · rfl
  · have due : s.dev.seekDue m = true := by simp [Device.seekDue, hs, ht]
    simp only [exec, execSeekWindowEnd, due, if_true, State.onDevice, Device.endSeekWindow, hw]
    cases m <;> rfl
  · have due : s.dev.seekDue m = true := by simp [Device.seekDue, hs, ht]
    have last : ¬ (s.dev.port m).window < 11 := by omega
    simp only [exec, execSeekWindowEnd, due, if_true, State.onDevice, Device.endSeekWindow, last, if_false,
      Device.takeDown_eq]
    rfl
  · have due : s.dev.seekDue m = false := by
      rw [Device.seekDue, Bool.and_eq_false_iff, decide_eq_false_iff_not, decide_eq_false_iff_not, Nat.not_le]
      exact hn
    simp only [exec, execSeekWindowEnd, due, Bool.false_eq_true, if_false]
  · rw [Device.mrstAsserted, hr, Bool.false_or]
    cases (s.dev.port m).state <;> simp

/-! ### The scaler (R31 to R33) -/

/-- R31, R32: a source position is the interpolated one limited to the window. -/
theorem sourcePosition_cast (origin size out i : Nat) :
    (sourcePosition origin size out i : Int) =
      max (256 * (origin : Int)) (min
        (256 * (origin : Int) + (256 * ((2 * i + 1 : Int) * size - out)).tdiv (2 * out))
        (256 * ((origin : Int) + size - 1))) := by
  unfold sourcePosition truncDiv
  rw [Nat.cast_mul, Nat.cast_ofNat, Int.toNat_of_nonneg (le_max_of_le_left (by omega))]

theorem sourcePosition_within {size : Nat} (hsize : 0 < size) (origin out i : Nat) :
    256 * origin ≤ sourcePosition origin size out i ∧ sourcePosition origin size out i ≤ 256 * (origin + size - 1) := by
  have cast := sourcePosition_cast origin size out i
  generalize (256 * ((2 * i + 1 : Int) * size - out)).tdiv (2 * out) = q at cast
  omega

/-- A weighted sample depends on the source only where its weight is not 0. -/
theorem sample_mul_eq {src src' : Nat → Nat → Nat} {n m w : Nat} (h : w ≠ 0 → src n m = src' n m) :
    src n m * w = src' n m * w := by
  by_cases hw : w = 0
  · rw [hw, mul_zero, mul_zero]
  · rw [h hw]

theorem sample_mul_le {src : Nat → Nat → Nat} {n m w : Nat} (h : w ≠ 0 → src n m ≤ 255) : src n m * w ≤ 255 * w := by
  by_cases hw : w = 0
  · rw [hw, mul_zero, mul_zero]
  · exact Nat.mul_le_mul_right w (h hw)

/-- The four weights of an interpolation sum to 256². -/
theorem weights_sum {fx fy : Nat} (hx : fx < 256) (hy : fy < 256) :
    (256 - fx) * (256 - fy) + fx * (256 - fy) + (256 - fx) * fy + fx * fy = 65536 := by
  have factored : (256 - fx) * (256 - fy) + fx * (256 - fy) + (256 - fx) * fy + fx * fy =
      (256 - fx + fx) * (256 - fy + fy) := by ring
  rw [factored, Nat.sub_add_cancel hx.le, Nat.sub_add_cancel hy.le]

/-- R33: the sample at a position given by its whole pixels and its 256ths. -/
theorem interpolate_eq (src : Nat → Nat → Nat) {q r n fx m fy : Nat} (hq : q = 256 * n + fx) (hx : fx < 256)
    (hr : r = 256 * m + fy) (hy : fy < 256) :
    interpolate src q r =
      (src n m * (256 - fx) * (256 - fy) + src (n + 1) m * fx * (256 - fy) + src n (m + 1) * (256 - fx) * fy +
        src (n + 1) (m + 1) * fx * fy + 32768) / 65536 := by
  have hn : q / 256 = n := by omega
  have hfx : q % 256 = fx := by omega
  have hm : r / 256 = m := by omega
  have hfy : r % 256 = fy := by omega
  simp only [interpolate, hn, hfx, hm, hfy]

/-- One axis: the pixel at a position lies in the window, and the next one does wherever it has a weight. -/
theorem pixel_within {origin size q : Nat} (hsize : 0 < size) (low : 256 * origin ≤ q)
    (high : q ≤ 256 * (origin + size - 1)) :
    origin ≤ q / 256 ∧ q / 256 < origin + size ∧ (q % 256 ≠ 0 → q / 256 + 1 < origin + size) := by
  omega

/-- R33: a rendered sample depends on the samples of its window alone, and lies in 0..255 where they do. -/
theorem renderSample_of_window {src src' : Nat → Nat → Nat} {win : Window} (out : Nat × Nat) (i j : Nat) (hw : 0 < win.w)
    (hh : 0 < win.h)
    (same : ∀ col row, win.x0 ≤ col → col < win.x0 + win.w → win.y0 ≤ row → row < win.y0 + win.h →
      src col row = src' col row ∧ src col row ≤ 255) :
    renderSample src win out i j = renderSample src' win out i j ∧ renderSample src win out i j ≤ 255 := by
  obtain ⟨lowX, highX⟩ := sourcePosition_within hw win.x0 out.1 i
  obtain ⟨lowY, highY⟩ := sourcePosition_within hh win.y0 out.2 j
  unfold renderSample interpolate
  generalize sourcePosition win.x0 win.w out.1 i = q at lowX highX ⊢
  generalize sourcePosition win.y0 win.h out.2 j = r at lowY highY ⊢
  obtain ⟨x1, x2, x3⟩ := pixel_within hw lowX highX
  obtain ⟨y1, y2, y3⟩ := pixel_within hh lowY highY
  have hx : q % 256 < 256 := Nat.mod_lt _ (by omega)
  have hy : r % 256 < 256 := Nat.mod_lt _ (by omega)
  generalize q / 256 = n at *
  generalize r / 256 = m at *
  generalize q % 256 = fx at *
  generalize r % 256 = fy at *
  have at00 := fun _ : (256 - fx) * (256 - fy) ≠ 0 => same n m x1 x2 y1 y2
  have at10 := fun h : fx * (256 - fy) ≠ 0 => same (n + 1) m (by omega) (x3 (left_ne_zero_of_mul h)) y1 y2
  have at01 := fun h : (256 - fx) * fy ≠ 0 => same n (m + 1) x1 x2 (by omega) (y3 (right_ne_zero_of_mul h))
  have at11 := fun h : fx * fy ≠ 0 =>
    same (n + 1) (m + 1) (by omega) (x3 (left_ne_zero_of_mul h)) (by omega) (y3 (right_ne_zero_of_mul h))
  dsimp only
  simp only [mul_assoc]
  constructor
  · rw [sample_mul_eq fun h => (at00 h).1, sample_mul_eq fun h => (at10 h).1, sample_mul_eq fun h => (at01 h).1,
      sample_mul_eq fun h => (at11 h).1]
  · have sum := weights_sum hx hy
    have le00 := sample_mul_le fun h => (at00 h).2
    have le10 := sample_mul_le fun h => (at10 h).2
    have le01 := sample_mul_le fun h => (at01 h).2
    have le11 := sample_mul_le fun h => (at11 h).2
    omega

/-- Settles O21, from the bounds of a source position and of a rendered sample. -/
theorem scalerReadsOnlyTheWindow : Obligations.ScalerReadsOnlyTheWindow := by
  intro src src' win out i j hw hh _ _ same
  obtain ⟨lowX, highX⟩ := sourcePosition_within hw win.x0 out.1 i
  obtain ⟨lowY, highY⟩ := sourcePosition_within hh win.y0 out.2 j
  obtain ⟨equal, bound⟩ := renderSample_of_window out i j hw hh same
  exact ⟨lowX, highX, lowY, highY, equal, bound, sourcePosition_cast win.x0 win.w out.1 i,
    sourcePosition_cast win.y0 win.h out.2 j, fun n fx m fy hq hx hr hy => interpolate_eq src hq hx hr hy⟩

/-! ### The conditions at reset -/

theorem Device.initial_slot {x : Slot} (h : x ∈ Device.initial.slots) : x = Slot.freed x.id := by
  obtain ⟨id, -, rfl⟩ := List.mem_map.mp h
  rfl

theorem Device.initial_buffer {b : OutputBuffer} (h : b ∈ Device.initial.buffers) : b.state = .free := by
  obtain ⟨id, -, rfl⟩ := List.mem_map.mp h
  rfl

theorem Device.initial_port (m : PortId) : Device.initial.port m = ModulePort.initial := ModulePort.initial_port m

theorem Device.initial_rolesCoherent : Device.initial.RolesCoherent where
  oneActive m n h := by cases m <;> cases h
  dest m := ⟨fun h => (by cases m <;> cases h), fun h => (by cases h)⟩
  source h := by cases h
  linkless h := by cases h
  destLinked h := by cases h

theorem Device.initial_zoomsInRange : Device.initial.ZoomsInRange where
  nominal := by decide
  applied := by decide
  queue e h := by cases h
  ramp r h := by cases h
  records m := by cases m <;> decide

theorem Device.initial_ringOrdered : Device.initial.RingOrdered where
  size := by decide
  outside _ := rfl
  order := List.Pairwise.nil
  past x h := by cases h

theorem Device.initial_framesCoherent : Device.initial.FramesCoherent where
  quotas := ⟨by decide, fun m => by cases m <;> decide⟩
  owned x h hs := by rw [Device.initial_slot h] at hs; exact absurd rfl hs
  outside _ x h := by rw [Device.initial_slot h]; rfl
  filling m f h := by rw [Device.initial_port] at h; cases h
  distinct x h _ _ ho := by rw [Device.initial_slot h] at ho; cases ho
  awaited m := by
    rw [Device.initial_port]
    exact ⟨List.Pairwise.nil, fun e h => by cases h⟩
  idle _ m := by rw [Device.initial_port]; exact ⟨rfl, rfl⟩

theorem Device.initial_buffersCoherent : Device.initial.BuffersCoherent where
  ids := rfl
  composing b h := by rw [Device.initial_buffer h]; simp [Device.initial]
  sending b h := by rw [Device.initial_buffer h]; simp [Device.initial, OutputLink.initial]
  last x h _ _ hl := by rw [Device.initial_buffer h] at hl; cases hl
  repeating r h := by cases h
  grey r h := by cases h

/-- Settles O56, condition by condition. -/
theorem conditionsHoldAtReset : Obligations.ConditionsHoldAtReset := by
  obtain ⟨events, queues, session, slots, fits⟩ := Device.poweredOn_coherent .powerOn false false
  exact ⟨⟨rfl, events, queues, session, slots, fits⟩, Device.initial_rolesCoherent, Device.initial_zoomsInRange,
    Device.initial_ringOrdered, Device.initial_framesCoherent, Device.initial_buffersCoherent⟩

end Sys2Proof.Machine
end

section
/-! PROOFS. The queries and their reports (R9, R52, R82, R125, R155, R175, R178, R183, R186). -/

namespace Sys2Proof.Machine

open Sys2Proof

/-! ### Fields that lie in other fields -/

theorem HandoffContext.bytes_eq : HandoffContext.bytes = fun c =>
    portByte c.dest ++ u8 c.direction.number ++ u8 c.prepared ++ u8 c.elapsed ++ u8 c.deferral ++
      optionalBytes 4 (c.residual.map Residual.bytes) ++ u8 c.step := by
  funext c
  rw [HandoffContext.bytes, optionalField_eq]

theorem LastChange.bytes_eq : LastChange.bytes = fun c =>
    optionalBytes 1 (c.old.map portByte) ++ portByte c.new ++ u8 c.reason.number ++ u32 c.period := by
  funext c
  rw [LastChange.bytes, optionalField_eq]

/-- R125: the round and the window's lane count, in SEEKING. -/
theorem ModulePort.seekField_bytes (q : ModulePort) :
    optionalBytes 2 (q.seekField.map fun x => u8 x.1 ++ u8 x.2.toNat) =
      if q.state = .seeking then
        [(1 : Byte)] ++ [BitVec.ofNat 8 (q.window / 3 + 1)] ++
          [BitVec.ofNat 8 (if q.window % 3 = 0 then 4 else if q.window % 3 = 1 then 2 else 1)]
      else [0, 0, 0] := by
  unfold ModulePort.seekField
  split
  · have lanes : (seekLanes q.window).toNat = if q.window % 3 = 0 then 4 else if q.window % 3 = 1 then 2 else 1 := by
      have small := Nat.mod_lt q.window (show 3 > 0 by omega)
      unfold seekLanes
      generalize q.window % 3 = r at small
      interval_cases r <;> rfl
    rw [← lanes]
    rfl
  · rfl

/-- R175: the number of three flags. -/
theorem bitsOf_three (a b c : Bool) :
    bitsOf [a, b, c] = (if a then 1 else 0) + (if b then 2 else 0) + (if c then 4 else 0) := by
  cases a <;> cases b <;> cases c <;> rfl

/-- R183: the number of five flags. -/
theorem bitsOf_five (a b c d e : Bool) :
    bitsOf [a, b, c, d, e] =
      (if a then 1 else 0) + (if b then 2 else 0) + (if c then 4 else 0) + (if d then 8 else 0) +
        (if e then 16 else 0) := by
  cases a <;> cases b <;> cases c <;> cases d <;> cases e <;> rfl

/-- R183: a listed record. -/
theorem EventRecord.bytes_eq : EventRecord.bytes = fun r =>
    let x := r.detail.getD { port := none, requestId := none, period := none, reason := none, zooms := none }
    u8 r.kind.number ++ u8 r.count ++
      u8 ((if x.port.isSome then 1 else 0) + (if x.requestId.isSome then 2 else 0) +
        (if x.period.isSome then 4 else 0) + (if x.reason.isSome then 8 else 0) + (if x.zooms.isSome then 16 else 0)) ++
      u8 ((x.port.map PortId.toNat).getD 0) ++ u8 (x.requestId.getD 0) ++ u32 (x.period.getD 0) ++
      u8 (x.reason.getD 0) ++ u16 ((x.zooms.map Prod.fst).getD 0) ++ u16 ((x.zooms.map Prod.snd).getD 0) := by
  funext r
  rw [EventRecord.bytes, EventDetail.presence, bitsOf_five]
  rfl

/-! ### Each report -/

theorem Device.portStatusPayload_eq (d : Device) (m : PortId) :
    let q := d.port m
    d.portStatusPayload m =
      optionalBytes 20 (q.config.map (portConfigBytes m)) ++ u8 q.state.number ++ u8 ((q.lanes.map Lanes.toNat).getD 0) ++
        (if q.state = .seeking then
          [(1 : Byte)] ++ [BitVec.ofNat 8 (q.window / 3 + 1)] ++
            [BitVec.ofNat 8 (if q.window % 3 = 0 then 4 else if q.window % 3 = 1 then 2 else 1)]
        else [0, 0, 0]) ++
        u32 q.newestExposure ++ u16 q.frameCounter ++ u8 q.expectations.length ++
        optionalBytes 10 (q.expectations.head?.map fun e => u32 e.period ++ u48 e.deadline) ++
        u8 q.badPeriods ++ u8 q.goodRun ++ u8 q.stallAge ++ u8 q.allowance.number ++
        u16 q.good ++ u16 q.missed ++ u16 q.faulted ++ u16 q.dropped ++ u16 q.skips := by
  simp only [Device.portStatusPayload, optionalField_eq, ModulePort.seekField_bytes]

theorem Device.viewPayload_eq (d : Device) :
    d.viewPayload =
      optionalBytes 53 (d.link.lastTrailer.map Trailer.bytes) ++
        optionalBytes 5 (d.link.sending.map fun r => u8 r.kind.number ++ u32 r.period) ++
        optionalBytes 5 (d.link.pending.map fun r => u32 r.period ++ u8 r.outcome.number) ++
        d.buffers.flatMap (fun b => u8 b.state.number ++ optionalBytes 4 (b.period.map u32)) ++
        optionalBytes 4 (d.composing.map fun c => u32 c.period) ++ u8 d.link.nonFresh ++
        (if d.link.frozenReported then [(1 : Byte)] else [0]) ++ optionalBytes 4 (d.link.fence.map u32) := by
  simp only [Device.viewPayload, optionalField_eq, flagByte_eq, Option.map_map]
  rfl

theorem probeResultBytes_eq (r : Option ProbeResult) :
    probeResultBytes r = match r with
      | none => List.replicate 20 0
      | some x =>
        [(1 : Byte)] ++ portByte x.activePort ++ portByte x.destPort ++ u32 x.period ++ signedLE 1 x.rx ++
          signedLE 1 x.ry ++ u8 x.bestCost ++ u8 x.contrast ++ u8 x.score ++
          (if x.accepted then [(1 : Byte)] else [0]) ++ (if x.taken then [(1 : Byte)] else [0]) ++ u48 x.time := by
  cases r with
  | none => rfl
  | some x => simp only [probeResultBytes, flagByte_eq]; rfl

theorem Device.handoffPayload_eq (d : Device) :
    d.handoffPayload =
      u16 d.planner.nominal ++ optionalBytes 7 (d.planner.ramp.map Ramp.bytes) ++ u8 d.planner.queue.length ++
        optionalBytes 1 (d.planner.queue.head?.map fun e => u8 e.id) ++
        optionalBytes 1 (d.planner.state.map fun st => u8 st.number) ++ optionalBytes 1 (d.activePort.map portByte) ++
        PortId.all.flatMap (fun m => u8 (d.role m).number ++ u8 (d.planner.bars.get m)) ++ u16 d.planner.applied ++
        optionalBytes 11 (d.planner.context.map fun c =>
          portByte c.dest ++ u8 c.direction.number ++ u8 c.prepared ++ u8 c.elapsed ++ u8 c.deferral ++
            optionalBytes 4 (c.residual.map Residual.bytes) ++ u8 c.step) ++
        (if d.probe.isSome then [(1 : Byte)] else [0]) ++ u8 d.planner.hold ++ u8 d.planner.guard ++
        optionalBytes 8 (d.planner.lastChange.map fun c =>
          optionalBytes 1 (c.old.map portByte) ++ portByte c.new ++ u8 c.reason.number ++ u32 c.period) ++
        u8 (if d.probe.isSome then 1 else 0) ++ optionalBytes 20 (d.probe.map ProbeContext.bytes) ++
        probeResultBytes d.probeResult := by
  simp only [Device.handoffPayload, optionalField_eq, flagByte_eq, HandoffContext.bytes_eq, LastChange.bytes_eq,
    Option.map_map]
  rfl

theorem FaultCapture.bytes_eq (f : FaultCapture) :
    f.bytes =
      (if f.captured.isSome then [(1 : Byte)] else [0]) ++ u8 ((f.captured.map fun c => c.kind.number).getD 0) ++
        optionalBytes 1 ((f.captured.bind CapturedFault.port).map portByte) ++
        optionalBytes 4 ((f.captured.bind CapturedFault.period).map u32) ++ u48 ((f.captured.map CapturedFault.time).getD 0) ++
        optionalBytes 1 ((f.captured.bind CapturedFault.reason).map u8) ++ u8 f.overflow := by
  simp only [FaultCapture.bytes, optionalField_eq, flagByte_eq]

/-! ### GET_EVENTS (R183) -/

/-- R183: the records of a group are listed in ascending kind number. -/
theorem EventSet.group_sorted {e : EventSet} (h : e.records.map EventRecord.kind = EventKind.all)
    (keep : EventRecord → Bool) :
    (e.records.filter keep).Pairwise fun x y => x.kind.number < y.kind.number := by
  have kinds : EventKind.all.Pairwise fun k l => k.number < l.number := by decide
  rw [← h, List.pairwise_map] at kinds
  exact kinds.filter keep

/-- R183: at most 18 records of 14 bytes. -/
theorem Device.eventsPayload_length (d : Device) (p : CmdPort) : (d.eventsPayload p).length ≤ 255 := by
  have listed : (((d.eventSet p).listing.take 18).flatMap EventRecord.bytes).length ≤ 252 := by
    rw [List.length_flatMap, List.map_congr_left fun r _ => EventRecord.bytes_length r, List.map_const',
      List.sum_replicate, List.length_take, smul_eq_mul]
    omega
  simp only [Device.eventsPayload, List.length_append, u8_length]
  omega

/-! ### The queries -/

theorem PortId.ofNat?_ofByte (m : PortId) : PortId.ofNat? (BitVec.ofNat 8 m.toNat).toNat = some m := by
  cases m <;> rfl

/-- Settles O7: each query leaves the device, and each report field by field. -/
theorem queriesChangeOnlyTheReply : Obligations.QueriesChangeOnlyTheReply := by
  refine ⟨fun p s hr hw hs => ⟨fun m => ?_, fun m => ?_, fun port hp => ⟨?_, ?_⟩, ?_, ?_, ?_, ?_⟩,
    fun d m p => ⟨?_, ?_, ?_, ?_, ?_, ?_⟩, rfl, rfl, rfl, rfl, rfl⟩
  · rw [exec_of_taken (i := .getPortStatus p _) rfl hr (availability_query hw hs (by simp)), Device.portStatus,
      PortId.ofNat?_ofByte]
  · rw [exec_of_taken (i := .calRead p _) rfl hr (availability_query hw hs (by simp)), Device.calRead,
      PortId.ofNat?_ofByte]
  · refine exec_of_ownerRefuses (i := .getPortStatus p port) rfl hr (availability_query hw hs (by simp)) ?_
    rw [Device.portStatus, PortId.ofNat?_of_lt hp]
  · refine exec_of_ownerRefuses (i := .calRead p port) rfl hr (availability_query hw hs (by simp)) ?_
    rw [Device.calRead, PortId.ofNat?_of_lt hp]
  · exact exec_of_taken (i := .getView p) rfl hr (availability_query hw hs (by simp))
  · exact exec_of_taken (i := .getHandoff p) rfl hr (availability_query hw hs (by simp))
  · exact exec_of_taken (i := .getEvents p) rfl hr (availability_query hw hs (by simp))
  · exact exec_of_taken (i := .getFault p) rfl hr (availability_query hw hs (by simp))
  · rw [Device.portStatusPayload_eq]
    rfl
  · simp only [Device.calPayload, flagByte_eq]
    rfl
  · rw [Device.viewPayload_eq]
    rfl
  · rw [Device.handoffPayload_eq, probeResultBytes_eq]
    rfl
  · refine ⟨?_, fun r => ?_, fun hk => ⟨EventSet.group_sorted hk _, EventSet.group_sorted hk _,
      d.eventsPayload_length p⟩⟩
    · rw [Device.eventsPayload, bitsOf_three, EventRecord.bytes_eq]
      rfl
    · exact (congrArg List.length (congrFun EventRecord.bytes_eq r).symm).trans r.bytes_length
  · rw [FaultCapture.bytes_eq]
    rfl

end Sys2Proof.Machine
end

section
/-! PROOFS. Reply slots and bus transactions (11.1 to 11.3): which row touches which, and what a host reads and writes byte
by byte. -/

namespace Sys2Proof.Machine

open Sys2Proof

/-! ### The command ports through a row -/

theorem Device.setReply_host_eq (d : Device) (p q : CmdPort) (r : Reply) :
    (d.setReply p r).host q = if q = p then { d.host q with reply := r } else d.host q := by
  cases p <;> cases q <;> rfl

theorem Device.setReply_bus (d : Device) (p q : CmdPort) (r : Reply) :
    ((d.setReply p r).host q).bus = (d.host q).bus := by
  rw [Device.setReply_host_eq]
  split <;> rfl

/-- A SOFT_RESET taken on port `p`: RESET_N high and a mode that takes it. -/
def Device.takesSoftReset (d : Device) (i : Instr) (p : CmdPort) : Prop :=
  i = .softReset p ∧ d.ctl.resetLow = false ∧ (d.mode = .standby ∨ d.mode = .streaming ∨ d.mode = .stopping)

/-- What the owner of a command leaves of the command ports: the replies, and the transactions but for a SOFT_RESET. -/
theorem Device.Owned.host {i : Instr} {p : CmdPort} {d e : Device} (h : Device.Owned i p d e)
    (hl : d.ctl.resetLow = false) (q : CmdPort) :
    (e.host q).reply = (d.host q).reply ∧ ((e.host q).bus = (d.host q).bus ∨ d.takesSoftReset i p) := by
  cases hi : i.changesSettings with
  | false => rw [(h.leavesSettings hi).host q]; exact ⟨rfl, .inl rfl⟩
  | true =>
    cases h with
    | unchanged => exact ⟨rfl, .inl rfl⟩
    | causeRead => cases p <;> cases q <;> exact ⟨rfl, .inl rfl⟩
    | softReset _ _ hm => exact ⟨by rw [Device.softReset_host]; rfl, .inr ⟨rfl, hl, hm⟩⟩
    | portConfig => cases q <;> exact ⟨rfl, .inl rfl⟩
    | calWrite => cases q <;> exact ⟨rfl, .inl rfl⟩
    | outputConfig => cases q <;> exact ⟨rfl, .inl rfl⟩
    | handoffConfig => cases q <;> exact ⟨rfl, .inl rfl⟩
    | hold _ _ _ _ hc => cases i <;> cases hi <;> cases hc
    | _ => cases hi

/-- R174, R176: a row that is no reset leaves the reply slot of every port but its own. -/
theorem exec_reply_other {s t : State} {i : Instr} {q : CmdPort} (hi : i.isReset = false) (hs : i.sender? ≠ some q)
    (h : exec i s = .next t) : (t.dev.host q).reply = (s.dev.host q).reply := by
  obtain leaves | ⟨p, r, e, hp, he, kept⟩ := (exec_move h).leavesSettings_or hi
  · rw [leaves.host q]
  · have other : q ≠ p := by rintro rfl; exact hs hp
    rw [he, Device.setReply_host_eq, if_neg other]
    obtain rfl | ⟨hl, owned⟩ := kept
    · rfl
    · exact (owned.host hl q).1

/-- Power-on and pin reset end the transaction under way on both buses. -/
theorem exec_bus_of_reset {s t : State} {i : Instr} (q : CmdPort) (hi : i.isReset = true) (h : exec i s = .next t) :
    (t.dev.host q).bus = none := by
  cases i <;> cases hi <;> cases h <;> cases q <;> rfl

/-- A SOFT_RESET that is taken leaves of each transaction what assumption log 21 says. -/
theorem exec_bus_of_softReset {s t : State} {i : Instr} {p : CmdPort} (q : CmdPort) (hp : s.dev.takesSoftReset i p)
    (h : exec i s = .next t) : (t.dev.host q).bus = BusTransaction.afterSoftReset p q (s.dev.host q).bus := by
  obtain ⟨rfl, hl, hm⟩ := hp
  rw [exec_of_taken (i := .softReset p) rfl hl (availability_softReset hm)] at h
  cases h
  rw [State.answered, Device.setReply_bus, Device.softReset_host]
  rfl

/-- Nothing else ends a transaction. -/
theorem exec_bus_of_other {s t : State} {i : Instr} (q : CmdPort) (hi : i.isReset = false)
    (hs : ∀ p, ¬ s.dev.takesSoftReset i p) (h : exec i s = .next t) : (t.dev.host q).bus = (s.dev.host q).bus := by
  obtain leaves | ⟨p, r, e, hp, he, kept⟩ := (exec_move h).leavesSettings_or hi
  · rw [leaves.host q]
  · rw [he, Device.setReply_bus]
    obtain rfl | ⟨hl, owned⟩ := kept
    · rfl
    · exact (owned.host hl q).2.resolve_right (hs p)

/-- A transaction that no reset ends is left as it is. -/
theorem exec_bus_of_runsOn {s t : State} {i : Instr} {q : CmdPort} (hi : i.isReset = false)
    (hs : ∀ p, s.dev.takesSoftReset i p → p = q ∨ q = .m ∧ ∃ left, (s.dev.host q).bus = some (.read left))
    (h : exec i s = .next t) : (t.dev.host q).bus = (s.dev.host q).bus := by
  by_cases soft : ∃ p, s.dev.takesSoftReset i p
  · obtain ⟨p, hp⟩ := soft
    rw [exec_bus_of_softReset q hp h]
    exact BusTransaction.afterSoftReset_of_runsOn ((hs p hp).imp_left Eq.symm)
  · exact exec_bus_of_other q hi (fun p hp => soft ⟨p, hp⟩) h

/-! ### The bytes a host reads (R171, R172) -/

/-- A byte of a read: the next of those left, 0 once none is left. -/
theorem Device.nextReplyByte_eq (d : Device) (p : CmdPort) (left : Option (List Byte)) :
    d.nextReplyByte p left = ((left.getD (d.replyBytes p))[0]?.getD 0, (left.getD (d.replyBytes p)).drop 1) := by
  unfold Device.nextReplyByte
  cases left.getD (d.replyBytes p) <;> rfl

theorem State.sendReplyByte_eq (s : State) (p : CmdPort) (left : Option (List Byte)) :
    s.sendReplyByte p left =
      (s.onDevice fun d => d.setBus p (some (.read (some ((left.getD (s.dev.replyBytes p)).drop 1)))),
        some ((left.getD (s.dev.replyBytes p))[0]?.getD 0)) := by
  rw [State.sendReplyByte, Device.nextReplyByte_eq]

/-- The state during a read at a port, with the bytes left. -/
def State.reading (s : State) (p : CmdPort) (left : Option (List Byte)) : State :=
  s.onDevice fun d => d.setBus p (some (.read left))

theorem State.reading_bus (s : State) (p : CmdPort) (left : Option (List Byte)) :
    ((s.reading p left).dev.host p).bus = some (.read left) := by
  rw [State.reading, State.onDevice_dev, Device.setBus_host_self]

theorem State.sendReplyByte_reading (s : State) (p : CmdPort) (left : Option (List Byte)) :
    (s.reading p left).sendReplyByte p left =
      (s.reading p (some ((left.getD (s.dev.replyBytes p)).drop 1)),
        some ((left.getD (s.dev.replyBytes p))[0]?.getD 0)) := by
  rw [State.sendReplyByte_eq]
  simp only [State.reading, State.onDevice, Device.setBus_replyBytes, Device.setBus_setBus]

theorem State.endTransaction_dev (s : State) (p : CmdPort) : (s.endTransaction p).dev = s.dev.setBus p none := by
  obtain ⟨hb, he⟩ | ⟨message, -, he⟩ | ⟨b, -, -, he⟩ := s.endTransaction_cases p
  · rw [he, Device.setBus_same _ hb]
  · rw [he, State.writeMessage_eq, State.onDevice_dev]
  · rw [he, State.onDevice_dev]

theorem State.endTransaction_of_idle {s : State} {p : CmdPort} (h : (s.dev.host p).bus = none) :
    s.endTransaction p = s := by
  simp only [State.endTransaction, h, State.onDevice, Device.setBus_same s.dev h]

/-- A read that ends leaves nothing behind. -/
theorem State.endTransaction_reading (s : State) (p : CmdPort) (left : Option (List Byte)) :
    (s.reading p left).endTransaction p = s.onDevice fun d => d.setBus p none := by
  rw [State.endTransaction, State.reading_bus]
  simp only [State.reading, State.onDevice, Device.setBus_setBus]

/-- R172: the bytes left of a read at Port M after n of them. -/
theorem State.i2cReadBytes (s : State) (n : Nat) :
    ∃ left : Option (List Byte), left.getD (s.dev.replyBytes .m) = (s.dev.replyBytes .m).drop n ∧
      (fun x : State => x.i2cReadByte.1)^[n] (s.reading .m none) = s.reading .m left := by
  induction n with
  | zero => exact ⟨none, rfl, rfl⟩
  | succ n ih =>
    obtain ⟨left, hl, hn⟩ := ih
    refine ⟨some ((left.getD (s.dev.replyBytes .m)).drop 1), ?_, ?_⟩
    · rw [Option.getD_some, hl, List.drop_drop]
    · rw [Function.iterate_succ_apply', hn, State.i2cReadByte, State.reading_bus]
      dsimp only
      rw [State.sendReplyByte_reading]

/-- R172: the n-th byte of a read at Port M, and the STOP after n bytes. -/
theorem State.i2cRead_spec (s : State) (n : Nat) :
    let read := (fun x : State => x.i2cReadByte.1)^[n] (s.reading .m none)
    read.i2cReadByte.2 = some ((s.dev.replyBytes .m)[n]?.getD 0) ∧
      read.i2cStop = s.onDevice fun d => d.setBus .m none := by
  obtain ⟨left, hl, hn⟩ := s.i2cReadBytes n
  dsimp only
  rw [hn, State.i2cReadByte, State.reading_bus]
  dsimp only
  rw [State.sendReplyByte_reading, hl, State.i2cStop, State.endTransaction_reading, List.getElem?_drop, Nat.add_zero]
  exact ⟨rfl, rfl⟩

/-- R171: the bytes of an SPI read. -/
theorem State.spiClockAll_reading (s : State) (bytes : List Byte) (left : Option (List Byte)) :
    ∃ left', (s.reading .a left).spiClockAll bytes =
      (s.reading .a left', (List.range bytes.length).map fun i => some ((left.getD (s.dev.replyBytes .a))[i]?.getD 0)) := by
  induction bytes generalizing left with
  | nil => exact ⟨left, rfl⟩
  | cons b rest ih =>
    obtain ⟨left', h⟩ := ih (some ((left.getD (s.dev.replyBytes .a)).drop 1))
    refine ⟨left', ?_⟩
    have first : (s.reading .a left).spiClock b = (s.reading .a left).sendReplyByte .a left := by
      rw [State.spiClock, State.reading_bus]
    rw [State.spiClockAll, first, State.sendReplyByte_reading, h, List.length_cons,
      List.range_succ_eq_map, List.map_cons, List.map_map]
    simp only [Option.getD_some, List.getElem?_drop, Prod.mk.injEq, List.cons.injEq, true_and]
    exact List.map_congr_left fun i _ => by rw [Function.comp_apply, Nat.add_comm]

/-! ### Whole SPI transactions (R171) -/

/-- The rest of a transaction that a reset has ended does nothing. -/
theorem State.spi_of_idle {s : State} (b : Byte) (h : (s.dev.host .a).bus = none) :
    s.spiClock b = (s, none) ∧ s.spiDeselect = s := by
  refine ⟨?_, State.endTransaction_of_idle h⟩
  rw [State.spiClock, h]

/-- The first byte of an SPI transaction. -/
theorem State.spiSelect_clockAll (s : State) (kind : Byte) (rest : List Byte) :
    s.spiSelect.spiClockAll (kind :: rest) =
      let begun := s.onDevice fun d => d.setBus .a
        (some (if kind = 0x01 then .write [] else if kind = 0x02 then .turnaround else .ignored))
      ((begun.spiClockAll rest).1, none :: (begun.spiClockAll rest).2) := by
  have bus : (s.spiSelect.dev.host .a).bus = some .selected := by
    rw [State.spiSelect, State.onDevice_dev, Device.setBus_host_self]
  rw [State.spiClockAll, State.spiClock, bus]
  dsimp only
  split_ifs <;> simp only [State.spiSelect, State.onDevice, Device.setBus_setBus]

/-- An SPI write joins the queue as the command it spells. -/
theorem State.spiTransaction_write (s : State) (rest : List Byte) :
    s.spiTransaction (0x01 :: rest) =
      ({ s with
          dev := s.dev.setBus .a none
          pending := s.pending ++ if rest = [] then [] else [decodeMessage .a rest] },
        List.replicate (rest.length + 1) none) := by
  have bus : ((s.onDevice fun d => d.setBus .a (some (.write []))).dev.host .a).bus = some (.write []) := by
    rw [State.onDevice_dev, Device.setBus_host_self]
  rw [State.spiTransaction, State.spiSelect_clockAll, if_pos rfl]
  dsimp only
  rw [State.spiClockAll_write _ _ _ bus, List.nil_append, List.map_const', ← List.replicate_succ]
  simp only [State.spiDeselect, State.endTransaction, State.onDevice, Device.setBus_setBus, Device.setBus_host_self,
    State.writeMessage_eq]

/-- An SPI read sends the reply after a turnaround byte and changes nothing else. -/
theorem State.spiTransaction_read (s : State) (turn : Byte) (rest : List Byte) :
    s.spiTransaction (0x02 :: turn :: rest) =
      ({ s with dev := s.dev.setBus .a none },
        none :: none :: (List.range rest.length).map fun i => some ((s.dev.replyBytes .a)[i]?.getD 0)) := by
  have turned : ∀ bytes, (s.onDevice fun d => d.setBus .a (some .turnaround)).spiClockAll (turn :: bytes) =
      (((s.reading .a none).spiClockAll bytes).1, none :: ((s.reading .a none).spiClockAll bytes).2) := by
    intro bytes
    simp only [State.spiClockAll, State.spiClock, State.onDevice, Device.setBus_host_self, Device.setBus_setBus,
      State.reading]
  obtain ⟨left, h⟩ := s.spiClockAll_reading rest none
  rw [State.spiTransaction, State.spiSelect_clockAll, if_neg (by decide), if_pos rfl]
  dsimp only
  rw [turned, h, State.spiDeselect, State.endTransaction_reading]
  rfl

/-- An SPI transaction with any other first byte is ignored. -/
theorem State.spiTransaction_ignored (s : State) {kind : Byte} (h1 : kind ≠ 0x01) (h2 : kind ≠ 0x02)
    (rest : List Byte) :
    s.spiTransaction (kind :: rest) =
      ({ s with dev := s.dev.setBus .a none }, List.replicate (rest.length + 1) none) := by
  have bus : ((s.onDevice fun d => d.setBus .a (some .ignored)).dev.host .a).bus = some .ignored := by
    rw [State.onDevice_dev, Device.setBus_host_self]
  rw [State.spiTransaction, State.spiSelect_clockAll, if_neg h1, if_neg h2]
  dsimp only
  rw [State.spiClockAll_ignored _ _ bus, List.map_const', ← List.replicate_succ]
  simp only [State.spiDeselect, State.endTransaction, State.onDevice, Device.setBus_setBus, Device.setBus_host_self]

/-! ### I2C transactions (R172) -/

/-- A START with Port M's address and RESET_N high. -/
theorem State.i2cStart_own (s : State) {address : Nat} (ha : address = s.dev.i2cAddress)
    (hr : s.dev.ctl.resetLow = false) (read : Bool) :
    s.i2cStart address read =
      ((s.endTransaction .m).onDevice fun d => d.setBus .m (some (if read then .read none else .write [])), true) := by
  have own : address = (s.endTransaction .m).dev.i2cAddress ∧ (s.endTransaction .m).dev.ctl.resetLow = false := by
    rw [State.endTransaction_dev, Device.i2cAddress, Device.setBus_ctl]
    exact ⟨ha, hr⟩
  rw [State.i2cStart]
  exact if_pos own

/-- A START with another address, or with RESET_N low: nothing is acknowledged, and no transaction is under way. -/
theorem State.i2cStart_other (s : State) {address : Nat}
    (h : ¬ (address = s.dev.i2cAddress ∧ s.dev.ctl.resetLow = false)) (read : Bool) :
    (s.i2cStart address read).2 = false ∧ ((s.i2cStart address read).1.dev.host .m).bus = none := by
  have other : ¬ (address = (s.endTransaction .m).dev.i2cAddress ∧ (s.endTransaction .m).dev.ctl.resetLow = false) := by
    rw [State.endTransaction_dev, Device.i2cAddress, Device.setBus_ctl]
    exact h
  have ended : s.i2cStart address read = (s.endTransaction .m, false) := by
    rw [State.i2cStart]
    exact if_neg other
  rw [ended, State.endTransaction_dev, Device.setBus_host_self]
  exact ⟨rfl, rfl⟩

/-- The state after a message is written to Port M, before the write ends. -/
theorem State.i2cWritten (s : State) (hb : (s.dev.host .m).bus = none) {address : Nat}
    (ha : address = s.dev.i2cAddress) (hr : s.dev.ctl.resetLow = false) (message : List Byte) :
    message.foldl (fun x c => (x.i2cWriteByte c).1) (s.i2cStart address false).1 =
      s.onDevice fun d => d.setBus .m (some (.write message)) := by
  rw [State.i2cStart_own s ha hr, State.endTransaction_of_idle hb]
  dsimp only
  rw [State.i2cWriteBytes _ [] message (by rw [State.onDevice_dev, Device.setBus_host_self]; rfl), List.nil_append]
  simp only [State.onDevice, Device.setBus_setBus]

/-- The end of a write to Port M: the command it spells joins the queue. -/
theorem State.endTransaction_written (s : State) (hb : (s.dev.host .m).bus = none) (message : List Byte) :
    (s.onDevice fun d => d.setBus .m (some (.write message))).endTransaction .m =
      { s with pending := s.pending ++ if message = [] then [] else [decodeMessage .m message] } := by
  simp only [State.endTransaction, State.onDevice, Device.setBus_setBus, Device.setBus_host_self,
    State.writeMessage_eq, Device.setBus_same s.dev hb]

/-- A write to Port M, then a read by a repeated START. -/
theorem State.i2cRestarted (s : State) (hb : (s.dev.host .m).bus = none) {address : Nat}
    (ha : address = s.dev.i2cAddress) (hr : s.dev.ctl.resetLow = false) (message : List Byte) (hm : message ≠ []) :
    ((s.onDevice fun d => d.setBus .m (some (.write message))).i2cStart address true).1 =
      { s with
        dev := s.dev.setBus .m (some (.read none))
        pending := s.pending ++ [decodeMessage .m message] } := by
  have ha' : address = (s.onDevice fun d => d.setBus .m (some (.write message))).dev.i2cAddress := by
    rw [State.onDevice_dev, Device.i2cAddress, Device.setBus_ctl]
    exact ha
  have hr' : (s.onDevice fun d => d.setBus .m (some (.write message))).dev.ctl.resetLow = false := by
    rw [State.onDevice_dev, Device.setBus_ctl]
    exact hr
  rw [State.i2cStart_own _ ha' hr', State.endTransaction_written s hb, if_neg hm]
  rfl

/-! ### The statement -/

/-- A write to Port M, a repeated START and a read give that write's reply. -/
theorem State.i2cWriteThenRead (s : State) {address : Nat} {message : List Byte} (ha : address = s.dev.i2cAddress)
    (hr : s.dev.ctl.resetLow = false) (hp : s.pending = []) (hb : (s.dev.host .m).bus = none) (hm : message ≠ [])
    {v : State} :
    let restarted := ((message.foldl (fun x c => (x.i2cWriteByte c).1) (s.i2cStart address false).1).i2cStart address true).1
    step restarted = .next v → ∀ n,
      let read := (fun x : State => x.i2cReadByte.1)^[n] v
      read.i2cReadByte.2 = some ((v.dev.replyBytes .m)[n]?.getD 0) ∧ read.i2cStop.dev = v.dev.setBus .m none := by
  dsimp only
  rw [State.i2cWritten s hb ha hr, State.i2cRestarted s hb ha hr message hm, hp, List.nil_append]
  intro hv n
  have taken : exec (decodeMessage .m message) { s with dev := s.dev.setBus .m (some (.read none)), pending := [] } =
      .next v := hv
  obtain ⟨sender, noReset⟩ := decodeMessage_sender .m message
  have bus : (v.dev.host .m).bus = some (.read none) := by
    rw [exec_bus_of_runsOn noReset (fun p hsoft => .inl ?_) taken, Device.setBus_host_self]
    rw [hsoft.1] at sender
    exact Option.some.inj sender
  have same : v.reading .m none = v := by
    rw [State.reading, State.onDevice, Device.setBus_same _ bus]
  have read := v.i2cRead_spec n
  dsimp only at read
  rw [same] at read
  exact ⟨read.1, by rw [read.2, State.onDevice_dev]⟩

/-- A SOFT_RESET written to Port M is answered in the same read. -/
theorem State.i2cSoftReset (s : State) (hr : s.dev.ctl.resetLow = false)
    (hm : s.dev.mode = .standby ∨ s.dev.mode = .streaming ∨ s.dev.mode = .stopping) :
    ∃ v, exec (decodeMessage .m [0x05, 0x00]) { s with dev := s.dev.setBus .m (some (.read none)), pending := [] } =
        .next v ∧ v.dev.mode = .resetting ∧ (v.dev.host .m).reply = { status := .ok, payload := [] } := by
  have ctl : ∀ d : Device, (d.setBus .m (some (.read none))).ctl = d.ctl := fun d => Device.setBus_ctl d _ _
  refine ⟨_, exec_of_taken (i := .softReset .m) rfl ?_ (availability_softReset ?_), rfl, rfl⟩
  · dsimp only
    rw [ctl]
    exact hr
  · dsimp only
    rw [Device.mode, ctl]
    exact hm

/-- Settles O5: the rows, then the buses. -/
theorem repliesStayOnTheirPort : Obligations.RepliesStayOnTheirPort := by
  refine ⟨fun s t i q hi hs h => exec_reply_other hi hs h, fun s t i q h => ⟨?_, fun hi hs => ?_⟩,
    fun s address message ha hr hp hb hm => ⟨fun v hv => ?_, fun hsoft hmode => ?_⟩,
    fun s b h => State.spi_of_idle b h,
    fun s kind turn rest => ⟨State.spiTransaction_write s rest, State.spiTransaction_read s turn rest,
      fun h1 h2 => State.spiTransaction_ignored s h1 h2 rest⟩,
    fun s address message b => ⟨fun hb own => ?_, fun other => s.i2cStart_other other, fun taken hb => ?_, fun hb => ?_⟩⟩
  · rintro (hi | ⟨⟨p, soft, hne⟩, ended⟩)
    · exact exec_bus_of_reset q hi h
    · rw [exec_bus_of_softReset q soft h]
      exact BusTransaction.afterSoftReset_of_ended (not_or.mpr ⟨hne.symm, ended⟩)
  · exact exec_bus_of_runsOn hi hs h
  · exact s.i2cWriteThenRead ha hr hp hb hm hv
  · subst hsoft
    rw [State.i2cWritten s hb ha hr, State.i2cRestarted s hb ha hr _ hm, hp, List.nil_append]
    exact s.i2cSoftReset hr hmode
  · obtain ⟨ha, hr⟩ := own
    refine ⟨by rw [State.i2cStart_own s ha hr], ?_, by rw [State.i2cStart_own s ha hr], fun n => ?_⟩
    · rw [State.i2cWritten s hb ha hr, State.i2cStop, State.endTransaction_written s hb]
    · have started : (s.i2cStart address true).1 = s.reading .m none := by
        rw [State.i2cStart_own s ha hr, State.endTransaction_of_idle hb]
        rfl
      have read := s.i2cRead_spec n
      rw [State.onDevice, Device.setBus_same s.dev hb] at read
      rw [started]
      exact read
  · rw [State.i2cWriteByte, hb]
    rfl
  · refine ⟨?_, ?_, State.endTransaction_of_idle hb⟩
    · rw [State.i2cWriteByte, hb]
    · rw [State.i2cReadByte, hb]

end Sys2Proof.Machine
end

section
/-! PROOFS. The time base and the rows that fall due as it runs (R160, R164, R165). -/

namespace Sys2Proof.Machine

open Sys2Proof

/-! ### A free order -/

theorem placeAt_perm {α : Type} (x : α) (n : Nat) (l : List α) : (placeAt x n l).Perm (x :: l) := by
  induction l generalizing n with
  | nil => cases n <;> exact List.Perm.refl _
  | cons y l ih =>
    cases n with
    | zero => exact List.Perm.refl _
    | succ n => exact ((ih n).cons y).trans (List.Perm.swap x y l)

/-- R176: arrivals of one instant come in some order, none lost. -/
theorem inFreeOrder_perm (place : Nat → Nat) (l : List Instr) : (inFreeOrder place l).Perm l := by
  induction l with
  | nil => exact List.Perm.refl _
  | cons c rest ih => exact (placeAt_perm c _ _).trans (ih.cons c)

/-! ### When each row is due -/

theorem mem_dueIf {b : Bool} {c x : Instr} : x ∈ dueIf b c ↔ b = true ∧ x = c := by
  cases b <;> simp [dueIf]

theorem Device.periodDue_iff (d : Device) : d.periodDue = true ↔ d.PeriodDue := by
  unfold Device.periodDue Device.PeriodDue
  cases h : d.ctl.session with
  | none => simp
  | some x =>
    have next : d.nextPeriod = x.nextPlan := by rw [Device.nextPeriod, h]; rfl
    simp [h, and_assoc, Device.periodTime, Device.sessionStart, next]

theorem Device.fsyncDue_iff (d : Device) (m : PortId) :
    (d.fsyncDue m).isSome = true ↔ ∃ e, (d.port m).pendingFsync = some e ∧ e.issue ≤ d.now := by
  rw [Option.isSome_iff_exists, Device.fsyncDue]
  simp only [Option.filter_eq_some_iff, decide_eq_true_eq]

theorem Device.deadlineDue_iff (d : Device) (m : PortId) :
    (d.deadlineDue m).isSome = true ↔ ∃ e rest, (d.port m).expectations = e :: rest ∧ e.deadline ≤ d.now := by
  simp [Option.isSome_iff_exists, Device.deadlineDue_eq_some]

theorem Device.fillDue_iff (d : Device) {m : PortId} {c : PortConfig} (hc : (d.port m).config = some c) :
    (d.fillDue m).isSome = true ↔ ∃ f, (d.port m).filling = some f ∧ f.start + 2 * c.readout ≤ d.now := by
  rw [Option.isSome_iff_exists, Device.fillDue]
  simp only [Option.filter_eq_some_iff, decide_eq_true_eq, Device.fillLimit, hc]

theorem Device.composeDue_iff (d : Device) :
    d.composeDue.isSome = true ↔ ∃ plan rest, d.planner.plans = plan :: rest ∧ d.mode = .streaming ∧
      d.link.pending = none ∧ d.composeTime plan.period ≤ d.now := by
  unfold Device.composeDue
  cases d.planner.plans with
  | nil => simp
  | cons plan rest =>
    dsimp only
    split <;> simp_all

theorem Device.emissionDue_iff (d : Device) :
    d.emissionDue.isSome = true ↔ ∃ r, d.link.pending = some r ∧ (d.mode = .streaming ∨ d.mode = .stopping) ∧
      d.link.sending = none ∧ d.emissionTime r.period ≤ d.now := by
  unfold Device.emissionDue
  cases d.link.pending with
  | none => simp
  | some r =>
    dsimp only
    split <;> simp_all

theorem Device.txDue_iff (d : Device) :
    d.txDue.isSome = true ↔ ∃ r, d.link.sending = some r ∧ (d.mode = .streaming ∨ d.mode = .stopping) ∧
      d.txDoneTime r.period ≤ d.now := by
  unfold Device.txDue
  cases d.link.sending with
  | none => simp
  | some r =>
    dsimp only
    split <;> simp_all

theorem Device.autoResetDue_iff (d : Device) (m : PortId) :
    d.autoResetDue m = true ↔ d.PeriodDue ∧ (d.port m).state = .stalled ∧ (d.port m).allowance = .available ∧
      (d.port m).stallAge + 1 = d.ctl.handoff.deadLimit := by
  simp only [Device.autoResetDue, Device.resetNext, Bool.and_eq_true, decide_eq_true_eq, Device.periodDue_iff, and_assoc]

/-! ### The rows that may be due -/

/-- The timed rows of one port, in the order of `Device.dueAtPort`. -/
def timedRowsAt (m : PortId) : List Instr :=
  [Instr.resetPulseEnd m, Instr.seekWindowEnd m, Instr.fsyncIssue m, Instr.frameDeadline m, Instr.fillTimeout m,
    Instr.autoReset m]

/-- Every timed row, in the order of `Device.dueCommands`. -/
def timedRows : List Instr :=
  List.append [Instr.wakeComplete, Instr.softResetComplete] (List.append (PortId.all.flatMap timedRowsAt)
    [Instr.probeComplete, Instr.compositionComplete, Instr.txDone, Instr.composeDeadline, Instr.emissionStart,
      Instr.periodStart])

theorem dueIf_sublist (b : Bool) (c : Instr) : (dueIf b c).Sublist [c] := by
  cases b
  · exact List.nil_sublist _
  · exact List.Sublist.refl _

theorem flatMap_sublist {α β : Type} {f g : α → List β} (h : ∀ a, (f a).Sublist (g a)) (l : List α) :
    (l.flatMap f).Sublist (l.flatMap g) := by
  induction l with
  | nil => exact List.Sublist.refl _
  | cons a l ih => exact (h a).append ih

theorem Device.dueAtPort_sublist (d : Device) (m : PortId) : (d.dueAtPort m).Sublist (timedRowsAt m) := by
  unfold Device.dueAtPort
  simp only [List.append_assoc]
  exact (dueIf_sublist _ _).append ((dueIf_sublist _ _).append ((dueIf_sublist _ _).append
    ((dueIf_sublist _ _).append ((dueIf_sublist _ _).append (dueIf_sublist _ _)))))

theorem Device.dueCommands_sublist (d : Device) (i : Nat) : (d.dueCommands i).Sublist timedRows := by
  unfold Device.dueCommands
  simp only [List.append_assoc]
  exact (dueIf_sublist _ _).append ((dueIf_sublist _ _).append ((flatMap_sublist d.dueAtPort_sublist _).append
    ((dueIf_sublist _ _).append ((dueIf_sublist _ _).append ((dueIf_sublist _ _).append
      ((dueIf_sublist _ _).append ((dueIf_sublist _ _).append (dueIf_sublist _ _))))))))

/-- A row is among those due exactly when its own guard holds. -/
theorem Device.mem_dueCommands {d : Device} {i : Nat} {x : Instr} :
    x ∈ d.dueCommands i ↔
      (d.wakeDue = true ∧ x = .wakeComplete) ∨ (d.softResetDue = true ∧ x = .softResetComplete) ∨
      (∃ m, (d.pulseDue m = true ∧ x = .resetPulseEnd m) ∨ (d.seekDue m = true ∧ x = .seekWindowEnd m) ∨
        ((d.fsyncDue m).isSome = true ∧ x = .fsyncIssue m) ∨ ((d.deadlineDue m).isSome = true ∧ x = .frameDeadline m) ∨
        ((d.fillDue m).isSome = true ∧ x = .fillTimeout m) ∨ (d.autoResetDue m = true ∧ x = .autoReset m)) ∨
      (d.probeDue i = true ∧ x = .probeComplete) ∨ (d.compositionDue i = true ∧ x = .compositionComplete) ∨
      (d.txDue.isSome = true ∧ x = .txDone) ∨ (d.composeDue.isSome = true ∧ x = .composeDeadline) ∨
      (d.emissionDue.isSome = true ∧ x = .emissionStart) ∨ (d.periodDue = true ∧ x = .periodStart) := by
  have all : ∀ m, m ∈ PortId.all := fun m => by cases m <;> decide
  simp only [Device.dueCommands, Device.dueAtPort, List.mem_append, List.mem_flatMap, mem_dueIf, all, true_and, or_assoc]

theorem Device.mem_wakeComplete {d : Device} {i : Nat} : .wakeComplete ∈ d.dueCommands i ↔ d.wakeDue = true := by
  rw [Device.mem_dueCommands]
  simp only [reduceCtorEq, and_false, or_false, exists_false, and_true]

theorem Device.mem_softResetComplete {d : Device} {i : Nat} :
    .softResetComplete ∈ d.dueCommands i ↔ d.softResetDue = true := by
  rw [Device.mem_dueCommands]
  simp only [reduceCtorEq, and_false, false_or, or_false, exists_false, and_true]

theorem Device.mem_resetPulseEnd {d : Device} {i : Nat} {m : PortId} :
    .resetPulseEnd m ∈ d.dueCommands i ↔ d.pulseDue m = true := by
  rw [Device.mem_dueCommands]
  simp only [reduceCtorEq, and_false, false_or, or_false, Instr.resetPulseEnd.injEq, exists_eq_right']

theorem Device.mem_seekWindowEnd {d : Device} {i : Nat} {m : PortId} :
    .seekWindowEnd m ∈ d.dueCommands i ↔ d.seekDue m = true := by
  rw [Device.mem_dueCommands]
  simp only [reduceCtorEq, and_false, false_or, or_false, Instr.seekWindowEnd.injEq, exists_eq_right']

theorem Device.mem_fsyncIssue {d : Device} {i : Nat} {m : PortId} :
    .fsyncIssue m ∈ d.dueCommands i ↔ (d.fsyncDue m).isSome = true := by
  rw [Device.mem_dueCommands]
  simp only [reduceCtorEq, and_false, false_or, or_false, Instr.fsyncIssue.injEq, exists_eq_right']

theorem Device.mem_frameDeadline {d : Device} {i : Nat} {m : PortId} :
    .frameDeadline m ∈ d.dueCommands i ↔ (d.deadlineDue m).isSome = true := by
  rw [Device.mem_dueCommands]
  simp only [reduceCtorEq, and_false, false_or, or_false, Instr.frameDeadline.injEq, exists_eq_right']

theorem Device.mem_fillTimeout {d : Device} {i : Nat} {m : PortId} :
    .fillTimeout m ∈ d.dueCommands i ↔ (d.fillDue m).isSome = true := by
  rw [Device.mem_dueCommands]
  simp only [reduceCtorEq, and_false, false_or, or_false, Instr.fillTimeout.injEq, exists_eq_right']

theorem Device.mem_autoReset {d : Device} {i : Nat} {m : PortId} :
    .autoReset m ∈ d.dueCommands i ↔ d.autoResetDue m = true := by
  rw [Device.mem_dueCommands]
  simp only [reduceCtorEq, and_false, false_or, or_false, Instr.autoReset.injEq, exists_eq_right']

theorem Device.mem_probeComplete {d : Device} {i : Nat} : .probeComplete ∈ d.dueCommands i ↔ d.probeDue i = true := by
  rw [Device.mem_dueCommands]
  simp only [reduceCtorEq, and_false, false_or, or_false, exists_false, and_true]

theorem Device.mem_compositionComplete {d : Device} {i : Nat} :
    .compositionComplete ∈ d.dueCommands i ↔ d.compositionDue i = true := by
  rw [Device.mem_dueCommands]
  simp only [reduceCtorEq, and_false, false_or, or_false, exists_false, and_true]

theorem Device.mem_txDone {d : Device} {i : Nat} : .txDone ∈ d.dueCommands i ↔ d.txDue.isSome = true := by
  rw [Device.mem_dueCommands]
  simp only [reduceCtorEq, and_false, false_or, or_false, exists_false, and_true]

theorem Device.mem_composeDeadline {d : Device} {i : Nat} :
    .composeDeadline ∈ d.dueCommands i ↔ d.composeDue.isSome = true := by
  rw [Device.mem_dueCommands]
  simp only [reduceCtorEq, and_false, false_or, or_false, exists_false, and_true]

theorem Device.mem_emissionStart {d : Device} {i : Nat} :
    .emissionStart ∈ d.dueCommands i ↔ d.emissionDue.isSome = true := by
  rw [Device.mem_dueCommands]
  simp only [reduceCtorEq, and_false, false_or, or_false, exists_false, and_true]

theorem Device.mem_periodStart {d : Device} {i : Nat} : .periodStart ∈ d.dueCommands i ↔ d.periodDue = true := by
  rw [Device.mem_dueCommands]
  simp only [reduceCtorEq, and_false, false_or, exists_false, and_true]

/-- A place for each timed row. -/
def timedPlace : Instr → Nat
  | .resetPulseEnd m => 6 * m.toNat
  | .seekWindowEnd m => 6 * m.toNat + 1
  | .fsyncIssue m => 6 * m.toNat + 2
  | .frameDeadline m => 6 * m.toNat + 3
  | .fillTimeout m => 6 * m.toNat + 4
  | .autoReset m => 6 * m.toNat + 5
  | .wakeComplete => 24
  | .softResetComplete => 25
  | .probeComplete => 26
  | .compositionComplete => 27
  | .txDone => 28
  | .composeDeadline => 29
  | .emissionStart => 30
  | _ => 31

theorem timedRows_nodup : timedRows.Nodup := by
  have places : (timedRows.map timedPlace).Nodup := by decide
  exact List.Nodup.of_map _ places

/-- No row but those of a mode, a period, an output frame, a probe, a composition and a port is timed. -/
theorem timedRows_cases {c : Instr} (h : c ∈ timedRows) :
    c ∈ [Instr.wakeComplete, .softResetComplete, .periodStart, .composeDeadline, .emissionStart, .txDone,
      .probeComplete, .compositionComplete] ∨
    ∃ m, c ∈ [Instr.resetPulseEnd m, .seekWindowEnd m, .fsyncIssue m, .frameDeadline m, .fillTimeout m, .autoReset m] := by
  rcases List.mem_append.mp h with h | h
  · exact .inl (List.mem_append_left _ h)
  · rcases List.mem_append.mp h with h | h
    · obtain ⟨m, -, hm⟩ := List.mem_flatMap.mp h
      exact .inr ⟨m, hm⟩
    · refine .inl ?_
      simp only [List.mem_cons, List.not_mem_nil, or_false] at h ⊢
      tauto

/-- Settles O2: the tick, then each guard by itself. -/
theorem tickRunsTheTimeBase : Obligations.TickRunsTheTimeBase := by
  refine ⟨fun s hp => ⟨fun stands => ?_, fun hr hm => ?_⟩, fun d i => ?_⟩
  · have still : s.dev.clockRuns = false := by
      rw [Device.clockRuns, Bool.and_eq_false_iff, Bool.not_eq_false', decide_eq_false_iff_not, not_not]
      exact stands
    simp only [step, hp, State.tick, still, Bool.false_eq_true, if_false]
  · have runs : s.dev.clockRuns = true := by simp [Device.clockRuns, hr, hm]
    refine ⟨_, inFreeOrder_perm (Config.arrivalPlace s.freeIndex) _, ?_⟩
    simp only [step, hp, State.tick, runs, if_true, List.nil_append]
    rfl
  · dsimp only
    refine ⟨?_, ?_, fun m => ⟨?_, ?_, ?_, ?_, fun c hc => ?_, ?_⟩, ?_, ?_, ?_, ?_, fun h => ?_, fun c hc ht => ?_,
      fun h => ?_, timedRows_nodup.sublist (d.dueCommands_sublist i), fun x hx => ?_⟩
    · rw [Device.mem_wakeComplete, Device.wakeDue, Bool.and_eq_true, decide_eq_true_eq, decide_eq_true_eq]
    · rw [Device.mem_softResetComplete, Device.softResetDue, Bool.and_eq_true, decide_eq_true_eq, decide_eq_true_eq]
    · rw [Device.mem_resetPulseEnd, Device.pulseDue, Bool.and_eq_true, decide_eq_true_eq, decide_eq_true_eq]
    · rw [Device.mem_seekWindowEnd, Device.seekDue, Bool.and_eq_true, decide_eq_true_eq, decide_eq_true_eq]
    · exact Device.mem_fsyncIssue.trans (d.fsyncDue_iff m)
    · exact Device.mem_frameDeadline.trans (d.deadlineDue_iff m)
    · exact Device.mem_fillTimeout.trans (d.fillDue_iff hc)
    · exact Device.mem_autoReset.trans (d.autoResetDue_iff m)
    · exact Device.mem_periodStart.trans d.periodDue_iff
    · exact Device.mem_composeDeadline.trans d.composeDue_iff
    · exact Device.mem_emissionStart.trans d.emissionDue_iff
    · exact Device.mem_txDone.trans d.txDue_iff
    · have due := Device.mem_probeComplete.mp h
      unfold Device.probeDue at due
      split at due
      · cases due
      · next c hc =>
        rw [Bool.and_eq_true, decide_eq_true_eq] at due
        exact ⟨c, hc, due.1⟩
    · rw [Device.mem_probeComplete, Device.probeDue, hc]
      have started : c.start < d.now := by omega
      simp [started, ht]
    · have due := Device.mem_compositionComplete.mp h
      intro none
      rw [Device.compositionDue, none] at due
      cases due
    · exact timedRows_cases ((d.dueCommands_sublist i).subset hx)

end Sys2Proof.Machine
end

section
/-! PROOFS. Seeking and linking (7.3), FSYNC and the expectation queue (7.5), and the outcomes in health and in PREPARE
(7.7, 4.5, 4.6). -/

namespace Sys2Proof.Machine

open Sys2Proof

/-! ### Updates of one port -/

/-- Two updates of one port are one. -/
theorem Device.onPort_onPort (d : Device) (m : PortId) (f g : ModulePort → ModulePort) :
    (d.onPort m f).onPort m g = d.onPort m fun q => g (f q) := by
  cases m <;> rfl

/-- Updates of one port that agree on the record it has. -/
theorem Device.onPort_congr (d : Device) (m : PortId) {f g : ModulePort → ModulePort} (h : f (d.port m) = g (d.port m)) :
    d.onPort m f = d.onPort m g := by
  exact congrArg (fun q => Device.onPort d m fun _ => q) h

/-- An update that leaves the record of the port leaves the device. -/
theorem Device.onPort_eq_self (d : Device) (m : PortId) {f : ModulePort → ModulePort} (h : f (d.port m) = d.port m) :
    d.onPort m f = d := by
  rw [Device.onPort_congr d m (g := id) h]
  cases m <;> rfl

/-! ### Seeking (R112) -/

/-- R113: a valid header. -/
theorem headerValid_iff (h : FrameHeader) (lanes : Option Lanes) :
    headerValid h lanes = true ↔ h.checkOk = true ∧ lanes = some h.lanes := by
  rw [headerValid, Bool.and_eq_true, decide_eq_true_eq]

/-- R112: the lane count of the window in which the header's first line began. -/
theorem ModulePort.seekDecode_eq {q : ModulePort} {h : FrameHeader} {w : Nat}
    (hw : if h.straddles then w + 1 = q.window else w = q.window) : q.seekDecode h = some (seekLanes w) := by
  unfold ModulePort.seekDecode
  split at hw
  · next crosses =>
    rw [if_pos crosses, if_neg (by omega), ← hw]
    rfl
  · next within => rw [if_neg within, hw]

theorem Device.takeFrameStart_of_seeking {d : Device} {m : PortId} (h : FrameHeader) (hs : (d.port m).state = .seeking) :
    d.takeFrameStart m h = d.seekHeader m h := by
  unfold Device.takeFrameStart
  rw [hs]

/-- R54: a LINKED report in STREAMING, and in any other mode. -/
theorem Device.reportLinked_eq (d : Device) (m : PortId) :
    d.reportLinked m = if d.mode = .streaming then (d.setRole m (d.standbyRole m)).recomputeApplied else d := rfl

theorem Device.raise_standbyRole (d : Device) (k : EventKind) (x : EventDetail) (m : PortId) :
    (d.raise k x).standbyRole m = d.standbyRole m := rfl

/-- The standby role is the configuration's (R53). -/
theorem Device.onPort_standbyRole (d : Device) (m : PortId) {f : ModulePort → ModulePort}
    (h : (f (d.port m)).config = (d.port m).config) : (d.onPort m f).standbyRole m = d.standbyRole m := by
  unfold Device.standbyRole
  rw [Device.onPort_port, h]

theorem Word24.eq_zero_iff (x : Word24) : x.toNat = 0 ↔ x = 0 := by
  rw [← not_iff_not]
  exact BitVec.toNat_ne_zero_iff x

/-- Settles O32: the header decoded at its window's lane count. -/
theorem seekingHeaderLinksThePort : Obligations.SeekingHeaderLinksThePort := by
  refine ⟨fun m h s hs crosses first => ?_, fun m h w s hs hw => ?_⟩
  · have none : (s.dev.port m).seekDecode h = none := by
      rw [ModulePort.seekDecode, if_pos crosses, if_pos first]
    have stays : s.dev.takeFrameStart m h = s.dev := by
      rw [Device.takeFrameStart_of_seeking h hs, Device.seekHeader, none]
    exact congrArg (fun d => Host.Outcome.next (s.withDevice d)) stays
  · dsimp only
    have taken : s.dev.takeFrameStart m h =
        if !headerValid h (some (seekLanes w)) then s.dev
        else if (h.width, h.height) ≠ s.dev.frameSize m then s.dev.frameFault m s.dev.currentPeriod .size
        else s.dev.linkUp m (seekLanes w) h := by
      rw [Device.takeFrameStart_of_seeking h hs, Device.seekHeader, ModulePort.seekDecode_eq hw]
    have invalid : (!headerValid h (some (seekLanes w))) = true ↔ h.checkOk = false ∨ h.lanes ≠ seekLanes w := by
      rw [Bool.not_eq_true', ← Bool.not_eq_true, headerValid_iff, not_and_or, Bool.not_eq_true, Option.some_inj,
        eq_comm (a := seekLanes w)]
    show Host.Outcome.next (s.withDevice (s.dev.takeFrameStart m h)) = .next _
    rw [taken]
    refine congrArg Host.Outcome.next ?_
    by_cases bad : h.checkOk = false ∨ h.lanes ≠ seekLanes w
    · rw [if_pos (invalid.mpr bad)]
      exact (if_pos bad).symm
    · rw [if_neg (mt invalid.mp bad)]
      refine Eq.trans ?_ (if_neg bad).symm
      split
      · rfl
      · simp only [Device.linkUp, Device.reportLinked_eq, Word24.eq_zero_iff, Device.raise_mode, Device.onPort_mode,
          Device.raise_standbyRole]
        rw [Device.onPort_standbyRole s.dev m rfl]
        exact apply_ite s.withDevice (s.dev.mode = .streaming) _ _

/-! ### FSYNC and the expectation queue (R114, R115) -/

/-- R114: the phase φ limited into 0..trunc(P/2). -/
theorem Device.fsyncPhase_eq (d : Device) (m : PortId) :
    d.fsyncPhase m = min (d.ctl.output.period / 2) ((d.ctl.output.exposureRef - (d.port m).newestExposure) / 2) := by
  unfold Device.fsyncPhase truncDiv
  dsimp only
  by_cases later : (d.port m).newestExposure ≤ d.ctl.output.exposureRef
  · rw [← Nat.cast_sub later, ← Int.ofNat_tdiv]
    omega
  · rw [← neg_sub, ← Nat.cast_sub (Nat.le_of_not_le later), Int.neg_tdiv, ← Int.ofNat_tdiv]
    omega

/-- R106: the stored frame deadline within its limits. -/
theorem Device.deadlineOffset_eq (d : Device) {m : PortId} {c : PortConfig} (hc : (d.port m).config = some c) :
    d.deadlineOffset m = min (d.ctl.output.latency * d.ctl.output.period - d.ctl.output.guard)
      (max ((d.ctl.output.period + 3) / 4) c.deadline) := by
  rw [← OutputConfig.firstDeadline_eq]
  simp only [Device.deadlineOffset, hc, OutputConfig.firstDeadline]

theorem ModulePort.hasLink_iff (q : ModulePort) : q.hasLink = true ↔ q.state = .linked ∨ q.state = .stalled := by
  rw [ModulePort.hasLink, Bool.or_eq_true, decide_eq_true_eq, decide_eq_true_eq]

/-- R115: the issue time of a pending FSYNC. -/
theorem Device.issueFsync_eq (d : Device) (m : PortId) (e : Expectation) :
    d.issueFsync m e =
      if 4 ≤ (d.port m).expectations.length then
        (d.onPort m fun q => { q with pendingFsync := none }).countMissed m e.period
      else if e.deadline < d.now then
        (d.onPort m fun q => { q with pendingFsync := none, fsyncIssued := true,
                                      lastPulse := some e.issue }).countMissed m e.period
      else d.onPort m fun q =>
        { q with pendingFsync := none, fsyncIssued := true, lastPulse := some e.issue,
                 expectations := q.expectations ++ [e] } := by
  simp only [Device.issueFsync, Device.onPort_onPort]
  by_cases full : 4 ≤ (d.port m).expectations.length
  · rw [if_neg (by omega), if_pos full]
  · rw [if_pos (by omega), if_neg full]

/-- Settles O33: requests, issues and deadlines. -/
theorem fsyncsAndDeadlinesAreTimed : Obligations.FsyncsAndDeadlinesAreTimed := by
  refine ⟨fun d m k c hc => ⟨fun link => ?_, fun unlinked unstalled => ?_⟩, fun m s => ⟨fun e he due => ?_,
    fun early => ?_, fun e rest he due => ?_, fun early => ?_⟩⟩
  · rw [Device.requestFsync, if_pos ((ModulePort.hasLink_iff _).mpr link), Device.fsyncPhase_eq,
      Device.deadlineOffset_eq d hc]
    rfl
  · rw [Device.requestFsync, if_neg]
    rw [ModulePort.hasLink_iff]
    exact not_or.mpr ⟨unlinked, unstalled⟩
  · have comes : s.dev.fsyncDue m = some e := by
      rw [Device.fsyncDue, he, Option.filter_some, if_pos (decide_eq_true due)]
    simp only [exec, execFsyncIssue, comes]
    exact congrArg (fun d => Host.Outcome.next (s.withDevice d)) (s.dev.issueFsync_eq m e)
  · have none : s.dev.fsyncDue m = none := by
      rw [← Option.not_isSome_iff_eq_none, Device.fsyncDue_iff]
      rintro ⟨e, he, due⟩
      exact absurd (early e he) (Nat.not_lt.mpr due)
    simp only [exec, execFsyncIssue, none]
  · have comes : s.dev.deadlineDue m = some (e, rest) := Device.deadlineDue_eq_some.mpr ⟨he, due⟩
    simp only [exec, execFrameDeadline, comes]
    rfl
  · have none : s.dev.deadlineDue m = none := by
      rw [← Option.not_isSome_iff_eq_none, Device.deadlineDue_iff]
      rintro ⟨e, rest, he, due⟩
      exact absurd (early e rest he) (Nat.not_lt.mpr due)
    simp only [exec, execFrameDeadline, none]

/-! ### Outcomes in PREPARE (R62) -/

theorem Device.takeOutcome_of_deaf {d : Device} {m : PortId} (o : FrameOutcome)
    (h : d.planner.state ≠ some .prepare ∨ (∀ c, d.planner.context = some c → c.dest ≠ m) ∨ d.mode ≠ .streaming) :
    d.takeOutcome m o = d := by
  unfold Device.takeOutcome
  split
  · next c hs hc => exact if_pos (h.elim (absurd hs) (Or.imp_left fun other => other c hc))
  · rfl

/-- R62: an outcome of the DEST port in PREPARE. -/
theorem Device.takeOutcome_of_prepare {d : Device} {m : PortId} {c : HandoffContext} (o : FrameOutcome)
    (hs : d.planner.state = some .prepare) (hc : d.planner.context = some c) (hm : c.dest = m)
    (hr : d.mode = .streaming) :
    d.takeOutcome m o =
      match o with
      | .good true =>
        if c.prepared + 1 < 2 then
          d.onPlanner fun p => { p with context := some { c with prepared := c.prepared + 1 } }
        else
          Device.probeCheck (d.onPlanner fun p =>
            { p with state := some .probe, context := some { c with prepared := 2, deferral := 0 } }) d.planner.applied
      | .dropped => d
      | _ => d.onPlanner fun p => { p with context := some { c with prepared := 0 } } := by
  unfold Device.takeOutcome
  rw [hs, hc]
  dsimp only
  rw [if_neg (fun h => h.elim (absurd hm) (absurd hr))]
  rcases o with (_ | _) | _ | _ | _ <;> rfl

/-! ### Bad periods (R120) -/

/-- R62: the View Planner after a missed or faulted period of a port. -/
def Device.plannerHearingBad (d : Device) (m : PortId) : Planner :=
  match d.planner.state, d.planner.context with
  | some .prepare, some c =>
    if c.dest = m ∧ d.mode = .streaming then { d.planner with context := some { c with prepared := 0 } }
    else d.planner
  | _, _ => d.planner

theorem Device.takeOutcome_of_bad (d : Device) (m : PortId) {o : FrameOutcome} (ho : o = .missed ∨ o = .faulted) :
    d.takeOutcome m o = { d with planner := d.plannerHearingBad m } := by
  unfold Device.plannerHearingBad
  split
  · next c hs hc =>
    by_cases hears : c.dest = m ∧ d.mode = .streaming
    · rw [Device.takeOutcome_of_prepare o hs hc hears.1 hears.2, if_pos hears]
      obtain rfl | rfl := ho <;> rfl
    · rw [if_neg hears]
      refine Device.takeOutcome_of_deaf o (.inr ((not_and_or.mp hears).imp_left fun other c' hc' => ?_))
      cases hc.symm.trans hc'
      exact other
  · next absent =>
    refine Device.takeOutcome_of_deaf o ?_
    by_cases hs : d.planner.state = some .prepare
    · exact .inr (.inl fun c hc => absurd hc (absent c hs))
    · exact .inl hs

/-- R120: a bad period of a port. -/
theorem Device.badPeriod_eq (d : Device) (m : PortId) (k : Nat) (why : BadReason) :
    let counted : Device :=
      { d.onPort m fun q => { q with badPeriods := min 15 ((d.port m).badPeriods + 1), goodRun := 0 } with
        planner := d.plannerHearingBad m }
    d.badPeriod m k why =
      if (d.port m).state = .linked ∧ d.ctl.handoff.stallLimit ≤ min 15 ((d.port m).badPeriods + 1) then
        ((counted.onPort m fun q => { q with state := .stalled, stallAge := 0 }).raise .portStalled
          (EventDetail.ofPort m (some k) (some why.number))).reportLoss m .stalled
      else counted := by
  intro counted
  have counts : (d.onPort m fun q => { q with badPeriods := min 15 (q.badPeriods + 1), goodRun := 0 }) =
      d.onPort m fun q => { q with badPeriods := min 15 ((d.port m).badPeriods + 1), goodRun := 0 } :=
    Device.onPort_congr d m rfl
  have hears := fun (o : FrameOutcome) (ho : o = .missed ∨ o = .faulted) => Device.takeOutcome_of_bad
    (d.onPort m fun q => { q with badPeriods := min 15 ((d.port m).badPeriods + 1), goodRun := 0 }) m ho
  have port : counted.port m = { d.port m with badPeriods := min 15 ((d.port m).badPeriods + 1), goodRun := 0 } :=
    Device.onPort_port d m fun q => { q with badPeriods := min 15 ((d.port m).badPeriods + 1), goodRun := 0 }
  unfold Device.badPeriod
  rw [counts]
  dsimp only
  rw [hears _ (by cases why <;> decide)]
  show (if (counted.port m).state = .linked ∧ d.ctl.handoff.stallLimit ≤ (counted.port m).badPeriods then _
    else counted) = _
  rw [port]
  rfl

/-! ### The start check of a probe (R64, R84) -/

/-- The one ACTIVE port. -/
theorem Device.activePort_of_unique {d : Device} {a : PortId} (ha : d.role a = .active)
    (unique : ∀ n, d.role n = .active → n = a) : d.activePort = some a := by
  unfold Device.activePort
  rcases found : PortId.all.find? fun m => d.role m = .active with _ | n
  · have none := List.find?_eq_none.mp found a (PortId.mem_all a)
    exact absurd (decide_eq_true ha) none
  · rw [unique n (of_decide_eq_true (List.find?_some (p := fun m => decide (d.role m = .active)) found))]

theorem Device.probeCheck_of_none {d : Device} (h : d.probePair = none) (zoom : Nat) : d.probeCheck zoom = d := by
  rw [Device.probeCheck, h]

/-- R64: outside PROBE, with a probe in flight, a hold or too much motion no probe may start. -/
theorem Device.probePair_eq_none {d : Device}
    (h : d.planner.state ≠ some .probe ∨ d.probe ≠ none ∨ 0 < d.planner.hold ∨
      d.ctl.handoff.motionLimit < d.motionLevel) : d.probePair = none := by
  unfold Device.probePair
  split
  · next c a hs hc ha hp =>
    refine if_neg fun ⟨hold, level⟩ => ?_
    obtain h | h | h | h := h
    · exact h hs
    · exact h hp
    · omega
    · omega
  · rfl

/-- R64: the pair a probe would measure in PROBE. -/
theorem Device.probePair_of_probe {d : Device} {a : PortId} {c : HandoffContext} (hs : d.planner.state = some .probe)
    (hc : d.planner.context = some c) (ha : d.activePort = some a) (hp : d.probe = none) (hold : d.planner.hold = 0)
    (level : d.motionLevel ≤ d.ctl.handoff.motionLimit) :
    d.probePair = (d.pairQuery a c.dest).map fun q => (a, c.dest, q.1, q.2) := by
  unfold Device.probePair
  rw [hs, hc, ha, hp]
  exact if_pos ⟨hold, level⟩

/-- Settles O34: bad periods, the start check and the prepare count. -/
theorem outcomesInHealthAndPrepare : Obligations.OutcomesInHealthAndPrepare := by
  refine ⟨fun d m k why => ?_, fun d m zoom => ⟨rfl, fun h => ?_, fun a c hs hc ha unique hp hold level => ?_⟩,
    fun d m o => Device.takeOutcome_of_deaf o, fun d m c hs hc hm hr => ⟨fun few => ?_, fun enough => ?_, ?_, ?_⟩⟩
  · cases why <;> exact d.badPeriod_eq m k _
  · rw [← Device.motionLevel_eq_getD] at h
    exact Device.probeCheck_of_none (Device.probePair_eq_none h) zoom
  · rw [← Device.motionLevel_eq_getD] at level
    have pair := Device.probePair_of_probe hs hc (Device.activePort_of_unique ha unique) hp hold level
    refine ⟨fun hq => Device.probeCheck_of_none (by rw [pair, hq]; rfl) zoom, fun x y k centre hq hk hcentre => ?_⟩
    rw [hq] at pair
    simp only [Device.probeCheck, pair, Option.map_some, Device.startProbe, hk, hcentre]
    rfl
  · rw [Device.takeOutcome_of_prepare _ hs hc hm hr]
    exact if_pos few
  · rw [Device.takeOutcome_of_prepare _ hs hc hm hr]
    exact if_neg (by omega)
  · rw [Device.takeOutcome_of_prepare _ hs hc hm hr]
    rfl
  · rw [Device.takeOutcome_of_prepare _ hs hc hm hr]

end Sys2Proof.Machine
end

section
/-! PROOFS. Frame reception (7.6): frame starts, pixel lines, frame ends and faults. -/

namespace Sys2Proof.Machine

open Sys2Proof

/-! ### What reports and outcomes leave of the ports -/

/-- Every port's record is left, but that a frame being filled may end. -/
def Device.OnlyEndsFills (d e : Device) : Prop :=
  ∀ m, e.port m = d.port m ∨ e.port m = { d.port m with filling := none }

theorem Device.OnlyEndsFills.refl (d : Device) : d.OnlyEndsFills d := fun _ => .inl rfl

theorem Device.OnlyEndsFills.of_ports {d e : Device} (h : e.ports = d.ports) : d.OnlyEndsFills e :=
  fun m => .inl (congrArg (fun p => PerPort.get p m) h)

theorem Device.OnlyEndsFills.trans {d e f : Device} (h : d.OnlyEndsFills e) (g : e.OnlyEndsFills f) :
    d.OnlyEndsFills f := by
  intro m
  obtain hm | hm := h m <;> obtain gm | gm := g m <;> rw [hm] at gm
  · exact .inl gm
  · exact .inr gm
  · exact .inr gm
  · exact .inr gm

theorem Device.OnlyEndsFills.state {d e : Device} (h : d.OnlyEndsFills e) (m : PortId) :
    (e.port m).state = (d.port m).state := by
  obtain hm | hm := h m <;> rw [hm]

theorem Device.OnlyEndsFills.filling {d e : Device} (h : d.OnlyEndsFills e) {m : PortId}
    (hm : (d.port m).filling = none) : (e.port m).filling = none := by
  obtain he | he := h m <;> rw [he]
  exact hm

theorem Device.freeUnheld_onlyEndsFills (d : Device) (m : PortId) : d.OnlyEndsFills (d.freeUnheld m) := by
  intro n
  rw [Device.freeUnheld, Device.onPort_port_eq]
  split
  · next same => subst same; exact .inr rfl
  · exact .inl rfl

theorem Device.setRole_onlyEndsFills (d : Device) (m : PortId) (r : Role) : d.OnlyEndsFills (d.setRole m r) := by
  unfold Device.setRole
  dsimp only
  split
  · exact (Device.OnlyEndsFills.of_ports rfl).trans (Device.freeUnheld_onlyEndsFills _ m)
  · exact .of_ports rfl

@[simp] theorem Device.recomputeApplied_ports (d : Device) : d.recomputeApplied.ports = d.ports := by
  unfold Device.recomputeApplied
  split <;> rfl

theorem Device.changeActive_onlyEndsFills (d : Device) (old : Option PortId) (new : PortId) (r : ChangeReason) (k : Nat) :
    d.OnlyEndsFills (d.changeActive old new r k) := by
  have rests : d.OnlyEndsFills (match old with | some a => d.setRole a (d.restRole a) | none => d) := by
    cases old with
    | none => exact .refl d
    | some a => exact Device.setRole_onlyEndsFills d a _
  exact (rests.trans (Device.setRole_onlyEndsFills _ new _)).trans (.of_ports rfl)

theorem Device.abort_onlyEndsFills (d : Device) (m : PortId) (r : LossReport) : d.OnlyEndsFills (d.abort m r) :=
  (Device.setRole_onlyEndsFills d m _).trans (.of_ports (Device.recomputeApplied_ports _))

theorem Device.loseActive_onlyEndsFills (d : Device) (m : PortId) (r : LossReport) :
    d.OnlyEndsFills (d.loseActive m r) := by
  unfold Device.loseActive
  split
  · exact (Device.changeActive_onlyEndsFills d _ _ _ _).trans (.of_ports (Device.recomputeApplied_ports _))
  · split
    · exact .of_ports (Device.recomputeApplied_ports _)
    · exact (Device.setRole_onlyEndsFills d m .cold).trans (.of_ports (Device.recomputeApplied_ports _))

theorem Device.reportLoss_onlyEndsFills (d : Device) (m : PortId) (r : LossReport) :
    d.OnlyEndsFills (d.reportLoss m r) := by
  unfold Device.reportLoss
  split
  · exact .refl d
  · split
    · exact (Device.changeActive_onlyEndsFills d _ _ _ _).trans (.of_ports (Device.recomputeApplied_ports _))
    · exact Device.loseActive_onlyEndsFills d m r
    · exact Device.abort_onlyEndsFills d m r
    · split
      · exact .refl d
      · exact (Device.setRole_onlyEndsFills d m _).trans (.of_ports (Device.recomputeApplied_ports _))

/-! ### Outcomes -/

/-- R62: a dropped frame leaves the prepare count. -/
theorem Device.takeOutcome_dropped (d : Device) (m : PortId) : d.takeOutcome m .dropped = d := by
  unfold Device.takeOutcome
  split
  · exact ite_self d
  · rfl

/-- R120: a bad period may stall the port, and its report may end the frame it fills. -/
theorem Device.badPeriod_link (d : Device) (m : PortId) (k : Nat) (why : BadReason)
    (hs : (d.port m).state = .linked ∨ (d.port m).state = .stalled) (hf : (d.port m).filling = none) :
    (((d.badPeriod m k why).port m).state = .linked ∨ ((d.badPeriod m k why).port m).state = .stalled) ∧
      ((d.badPeriod m k why).port m).filling = none := by
  have counted (p : Planner) : Device.port
      { d.onPort m fun q => { q with badPeriods := min 15 ((d.port m).badPeriods + 1), goodRun := 0 } with
        planner := p } m = { d.port m with badPeriods := min 15 ((d.port m).badPeriods + 1), goodRun := 0 } :=
    Device.onPort_port d m fun q => { q with badPeriods := min 15 ((d.port m).badPeriods + 1), goodRun := 0 }
  rw [Device.badPeriod_eq]
  split
  · have reported := Device.reportLoss_onlyEndsFills
    rw [(reported _ m _).state, Device.raise_port, Device.onPort_port]
    refine ⟨.inr rfl, (reported _ m _).filling ?_⟩
    rw [Device.raise_port, Device.onPort_port, counted]
    exact hf
  · rw [counted]
    exact ⟨hs, hf⟩

/-- R118: after a fault the port has its link and fills no frame. -/
theorem Device.faultFill_link (d : Device) (m : PortId) (f : Fill) (r : FaultReason)
    (hs : (d.port m).state = .linked ∨ (d.port m).state = .stalled) :
    (((d.faultFill m f r).port m).state = .linked ∨ ((d.faultFill m f r).port m).state = .stalled) ∧
      ((d.faultFill m f r).port m).filling = none := by
  refine Device.badPeriod_link _ m _ _ ?_ ?_
  · simpa only [Device.frameFault, Device.onPort_port, Device.raise_port, Device.onSlot_port] using hs
  · simp only [Device.frameFault, Device.onPort_port, Device.raise_port]

/-! ### Frame starts (R116, R119) -/

/-- R116 order 1: a frame start on a port with a link in STREAMING, by the frame being filled. -/
theorem Device.takeFrameStart_of_link {d : Device} {m : PortId} (h : FrameHeader)
    (hs : (d.port m).state = .linked ∨ (d.port m).state = .stalled) (hm : d.mode = .streaming) :
    d.takeFrameStart m h =
      match (d.port m).filling with
      | some f => (d.faultFill m f .short).matchFrame m h
      | none => d.matchFrame m h := by
  unfold Device.takeFrameStart
  obtain hs | hs := hs <;> rw [hs, hm] <;> rfl

theorem Device.takeFrameStart_outside {d : Device} {m : PortId} (h : FrameHeader)
    (hs : (d.port m).state = .linked ∨ (d.port m).state = .stalled) (hm : d.mode ≠ .streaming) :
    d.takeFrameStart m h = d := by
  unfold Device.takeFrameStart
  obtain hs | hs := hs <;> rw [hs] <;> exact if_pos hm

/-- R116 order 2, R119: no FSYNC since the port linked, or in period 0 none since T_0. -/
theorem Device.awaitsNothing_iff (d : Device) (m : PortId) :
    d.awaitsNothing m = true ↔ (d.port m).fsyncIssued = false ∨
      (d.ctl.session.map Session.current).getD 0 = 0 ∧ ∀ t, (d.port m).lastPulse = some t → t < d.sessionStart := by
  have pulse : (match (d.port m).lastPulse with | some t => decide (t < d.sessionStart) | none => true) = true ↔
      ∀ t, (d.port m).lastPulse = some t → t < d.sessionStart := by
    cases (d.port m).lastPulse <;> simp
  rw [Device.awaitsNothing, Bool.or_eq_true, Bool.and_eq_true, Bool.not_eq_true', decide_eq_true_eq]
  exact or_congr_right (and_congr_right fun _ => pulse)

/-- R113: a valid header at a port. -/
theorem Device.takeHeader_eq (d : Device) (m : PortId) (h : FrameHeader) (q : ModulePort)
    (hf : q.frameCounter = (d.port m).frameCounter) (hs : q.skips = (d.port m).skips) :
    d.takeHeader m h = d.onPort m fun x =>
      { x with frameCounter := h.counter.toNat,
               skips := if h.counter.toNat = (q.frameCounter + 1) % 65536 then q.skips else min 65535 (q.skips + 1) } := by
  rw [hf, hs]
  exact Device.onPort_congr d m rfl

/-- R128: the slot a port below its quota is given. -/
theorem Device.allocate_of_free {d : Device} {m : PortId} {x : Slot} (hq : d.ownedCount m < d.quota m)
    (hx : d.lowestFree = some x) (k centre exposure : Nat) (settled : Bool) :
    d.allocate m k centre exposure settled =
      (some x.id, d.onSlot x.id fun y =>
        { y with state := .filling, owner := some m, period := some k, centre := some centre,
                 exposure := exposure, settled := settled, useCount := 0 }) := by
  rw [Device.allocate, if_pos hq, hx]

/-- R128: a port at its quota is given none. -/
theorem Device.allocate_at_quota {d : Device} {m : PortId} (hq : d.quota m ≤ d.ownedCount m) (k centre exposure : Nat)
    (settled : Bool) : d.allocate m k centre exposure settled = (none, d) := by
  rw [Device.allocate, if_neg (Nat.not_lt.mpr hq)]

/-- The exposure a header gives, or the newest one of the port. -/
def ModulePort.exposureOf (q : ModulePort) (h : FrameHeader) : Nat :=
  if h.exposure = 0 then q.newestExposure else h.exposure.toNat

/-- R116 order 6: a frame that is given a slot. -/
theorem Device.requestSlot_of_free {d : Device} {m : PortId} {x : Slot} (h : FrameHeader) (e : Expectation)
    (hq : d.ownedCount m < d.quota m) (hx : d.lowestFree = some x) :
    d.requestSlot m h e =
      (d.onSlot x.id fun y =>
        { y with state := .filling, owner := some m, period := some e.period,
                 centre := some (e.issue + (d.port m).exposureOf h / 2), exposure := (d.port m).exposureOf h,
                 settled := h.settled, useCount := 0 }).onPort m fun q =>
        { q with filling := some { slot := x.id, start := d.now, lines := 0 } } := by
  simp only [Device.requestSlot, Device.allocate_of_free hq hx, ModulePort.exposureOf, Word24.eq_zero_iff]

/-- R116 order 6: a frame that is given none is dropped. -/
theorem Device.requestSlot_at_quota {d : Device} {m : PortId} (h : FrameHeader) (e : Expectation)
    (hq : d.quota m ≤ d.ownedCount m) :
    d.requestSlot m h e =
      (d.raise .frameDropped (EventDetail.ofPort m (some e.period) none)).onPort m fun q =>
        { q with dropped := bump q.dropped } := by
  simp only [Device.requestSlot, Device.allocate_at_quota hq, Device.takeOutcome_dropped]

theorem Device.onPort_quota (d : Device) (m : PortId) {f : ModulePort → ModulePort}
    (h : (f (d.port m)).config = (d.port m).config) : (d.onPort m f).quota m = d.quota m := by
  unfold Device.quota
  rw [Device.onPort_port, h]

/-- Settles O35: a frame start by the frame being filled, the state, the mode and the head record. -/
theorem frameStartMeetsTheHeadRecord : Obligations.FrameStartMeetsTheHeadRecord := by
  refine ⟨fun m h s f hf hs hm => ?_, fun m h s hf => ⟨fun hs => ?_, fun hs hm => ?_, fun hs hm =>
    ⟨fun he waits => ?_, fun he waits => ?_, fun e rest he => ?_⟩⟩⟩
  · obtain ⟨link, unfilled⟩ := Device.faultFill_link s.dev m f .short hs
    have streaming : (s.dev.faultFill m f .short).mode = .streaming :=
      (Device.faultFill_portKeeps s.dev m f .short).keeps.mode.trans hm
    have first := Device.takeFrameStart_of_link h hs hm
    have second := Device.takeFrameStart_of_link h link streaming
    rw [hf] at first
    rw [unfilled] at second
    exact ⟨_, rfl, congrArg (fun d => Host.Outcome.next (s.withDevice d)) (second.trans first.symm)⟩
  · have stays : s.dev.takeFrameStart m h = s.dev := by
      unfold Device.takeFrameStart
      obtain hs | hs | hs := hs <;> rw [hs]
    exact congrArg (fun d => Host.Outcome.next (s.withDevice d)) stays
  · exact congrArg (fun d => Host.Outcome.next (s.withDevice d)) (Device.takeFrameStart_outside h hs hm)
  all_goals
    have starts : exec (.frameStart m h) s = .next (s.withDevice (s.dev.matchFrame m h)) := by
      have linked := Device.takeFrameStart_of_link h hs hm
      rw [hf] at linked
      exact congrArg (fun d => Host.Outcome.next (s.withDevice d)) linked
    rw [starts]
    unfold Device.matchFrame
    simp only [he]
  · rw [if_pos ((Device.awaitsNothing_iff s.dev m).mpr waits)]
    refine ⟨fun valid => ?_, fun invalid => ?_⟩
    · rw [if_pos ((headerValid_iff h _).mpr valid)]
    · rw [if_neg (mt (headerValid_iff h _).mp invalid)]
      rfl
  · rw [if_neg (mt (Device.awaitsNothing_iff s.dev m).mp waits)]
    refine ⟨fun valid => ?_, fun invalid => ?_⟩
    · rw [if_pos ((headerValid_iff h _).mpr valid), Device.takeHeader_eq s.dev m h (s.dev.port m) rfl rfl]
      rfl
    · rw [if_neg (mt (headerValid_iff h _).mp invalid)]
      rfl
  · refine ⟨fun invalid => ?_, fun valid size => ?_, fun valid size => ⟨fun x hq hx => ?_, fun hq => ?_⟩⟩
    · have bad : (!headerValid h (s.dev.port m).lanes) = true := by
        rw [Bool.not_eq_true', ← Bool.not_eq_true]
        exact mt (headerValid_iff h _).mp invalid
      rw [if_pos bad]
      rfl
    all_goals
      have good : ¬ (!headerValid h (s.dev.port m).lanes) = true := by
        rw [Bool.not_eq_true', Bool.not_eq_false]
        exact (headerValid_iff h _).mpr valid
      have port : (s.dev.onPort m fun q => { q with expectations := rest }).port m =
          { s.dev.port m with expectations := rest } := Device.onPort_port _ _ _
      rw [if_neg good, Device.takeHeader_eq _ m h (s.dev.port m) (by rw [port]) (by rw [port])]
    · rw [if_pos size]
      rfl
    · rw [if_neg (not_not.mpr size), Device.requestSlot_of_free (x := x)]
      · rw [Device.onPort_port, port]
        rfl
      · rw [Device.onPort_quota _ m rfl, Device.onPort_quota _ m rfl]
        exact hq
      · exact hx
    · rw [if_neg (not_not.mpr size), Device.requestSlot_at_quota]
      · rfl
      · rw [Device.onPort_quota _ m rfl, Device.onPort_quota _ m rfl]
        exact hq

/-! ### Pixel lines (R116, R118, 8.1) -/

/-- A byte of a run reads back at its place. -/
theorem Memory.read_writeBytes_of_get {mem : Memory} (h : mem.wf = true) {bs : List Byte} {i : Nat} {b : Byte}
    (hb : bs[i]? = some b) (a : Nat) : (mem.writeBytes a bs).read (a + i) = b := by
  rw [Memory.read_writeBytes _ _ _ _ h, if_pos (Nat.le_add_right a i), Nat.add_sub_cancel_left,
    List.getD_eq_getElem?_getD, hb, Option.getD_some]

/-- An address outside a run reads as before. -/
theorem Memory.read_writeBytes_of_outside {mem : Memory} (h : mem.wf = true) {bs : List Byte} {a c : Nat}
    (hc : ∀ i, i < bs.length → c ≠ a + i) : (mem.writeBytes a bs).read c = mem.read c := by
  rw [Memory.read_writeBytes _ _ _ _ h]
  split
  · next above =>
    have beyond : bs.length ≤ c - a := by
      by_contra within
      exact hc (c - a) (by omega) (by omega)
    rw [List.getD_eq_getElem?_getD, List.getElem?_eq_none beyond, Option.getD_none]
  · rfl

/-- A position of a grid comes before the grid's end. -/
theorem gridIndex_lt {w h col row : Nat} (hc : col < w) (hr : row < h) : row * w + col < w * h := by
  calc row * w + col < (row + 1) * w := by rw [Nat.succ_mul]; omega
    _ ≤ h * w := Nat.mul_le_mul_right w hr
    _ = w * h := Nat.mul_comm h w

/-- Where the planes of a picture lie: the luma plane first, then each chroma plane. -/
theorem sampleAddress_y (base w h col row : Nat) : sampleAddress base w h .y col row = base + (row * w + col) := by
  simp [sampleAddress, Plane.offset, Plane.scale, Nat.add_assoc]

theorem sampleAddress_u (base w h col row : Nat) :
    sampleAddress base w h .u col row = base + w * h + (row * (w / 2) + col) := by
  simp [sampleAddress, Plane.offset, Plane.scale, Nat.add_assoc]

theorem sampleAddress_v (base w h col row : Nat) :
    sampleAddress base w h .v col row = base + w * h + w / 2 * (h / 2) + (row * (w / 2) + col) := by
  simp [sampleAddress, Plane.offset, Plane.scale, Nat.add_assoc]

theorem sampleAddress_eq_start (base w h : Nat) (p : Plane) (col row : Nat) :
    sampleAddress base w h p col row = sampleAddress base w h p 0 row + col := rfl

/-- 8.1: the bytes a pixel line leaves as they were. -/
theorem Memory.read_writeLine_of_outside {mem : Memory} (hm : mem.wf = true) {base w h line : Nat} {y u v : List Byte}
    {a : Nat} (hy : ∀ i, i < w → i < y.length → a ≠ sampleAddress base w h .y i line)
    (hu : ∀ i, i < w / 2 → i < u.length → a ≠ sampleAddress base w h .u i (line / 2))
    (hv : ∀ i, i < w / 2 → i < v.length → a ≠ sampleAddress base w h .v i (line / 2)) :
    (mem.writeLine base w h line y u v).read a = mem.read a := by
  have luma := Memory.writeBytes_wf (y.take w) mem (sampleAddress base w h .y 0 line) hm
  have chroma := Memory.writeBytes_wf (u.take (w / 2)) _ (sampleAddress base w h .u 0 (line / 2)) luma
  unfold Memory.writeLine
  dsimp only
  rw [Memory.read_writeBytes_of_outside chroma, Memory.read_writeBytes_of_outside luma,
    Memory.read_writeBytes_of_outside hm]
  all_goals
    intro i hi
    rw [List.length_take, Nat.lt_min] at hi
    rw [← sampleAddress_eq_start]
  · exact hy i hi.1 hi.2
  · exact hu i hi.1 hi.2
  · exact hv i hi.1 hi.2

/-- 8.1: the luma samples of a pixel line. -/
theorem Memory.read_writeLine_y {mem : Memory} (hm : mem.wf = true) {base w h line : Nat} {y u v : List Byte} {i : Nat}
    {b : Byte} (hl : line < h) (hi : i < w) (hb : y[i]? = some b) :
    (mem.writeLine base w h line y u v).read (sampleAddress base w h .y i line) = b := by
  have luma := Memory.writeBytes_wf (y.take w) mem (sampleAddress base w h .y 0 line) hm
  have chroma := Memory.writeBytes_wf (u.take (w / 2)) _ (sampleAddress base w h .u 0 (line / 2)) luma
  have place := gridIndex_lt hi hl
  unfold Memory.writeLine
  dsimp only
  rw [Memory.read_writeBytes_of_outside chroma, Memory.read_writeBytes_of_outside luma, sampleAddress_eq_start]
  · exact Memory.read_writeBytes_of_get hm (by rw [List.getElem?_take_of_lt hi, hb]) _
  · intro j _
    rw [sampleAddress_y, sampleAddress_u]
    omega
  · intro j _
    rw [sampleAddress_y, sampleAddress_v]
    omega

/-- 8.1: the first chroma samples of a pixel line. -/
theorem Memory.read_writeLine_u {mem : Memory} (hm : mem.wf = true) {base w h line : Nat} {y u v : List Byte} {i : Nat}
    {b : Byte} (hl : line / 2 < h / 2) (hi : i < w / 2) (hb : u[i]? = some b) :
    (mem.writeLine base w h line y u v).read (sampleAddress base w h .u i (line / 2)) = b := by
  have luma := Memory.writeBytes_wf (y.take w) mem (sampleAddress base w h .y 0 line) hm
  have chroma := Memory.writeBytes_wf (u.take (w / 2)) _ (sampleAddress base w h .u 0 (line / 2)) luma
  have place := gridIndex_lt hi hl
  unfold Memory.writeLine
  dsimp only
  rw [Memory.read_writeBytes_of_outside chroma, sampleAddress_eq_start]
  · exact Memory.read_writeBytes_of_get luma (by rw [List.getElem?_take_of_lt hi, hb]) _
  · intro j _
    rw [sampleAddress_u, sampleAddress_v]
    omega

/-- 8.1: the second chroma samples of a pixel line. -/
theorem Memory.read_writeLine_v {mem : Memory} (hm : mem.wf = true) {base w h line : Nat} {y u v : List Byte} {i : Nat}
    {b : Byte} (hi : i < w / 2) (hb : v[i]? = some b) :
    (mem.writeLine base w h line y u v).read (sampleAddress base w h .v i (line / 2)) = b := by
  have luma := Memory.writeBytes_wf (y.take w) mem (sampleAddress base w h .y 0 line) hm
  have chroma := Memory.writeBytes_wf (u.take (w / 2)) _ (sampleAddress base w h .u 0 (line / 2)) luma
  rw [sampleAddress_eq_start]
  exact Memory.read_writeBytes_of_get chroma (by rw [List.getElem?_take_of_lt hi, hb]) _

/-- Settles O36: a line discarded, faulted or stored. -/
theorem pixelLinesAreStored : Obligations.PixelLinesAreStored := by
  intro m y u v checkOk s
  refine ⟨fun hf => ?_, fun f hf => ⟨fun extra ok => ?_, fun extra bad => ?_, fun within bad => ?_,
    fun within ok range => ?_, fun within ok range wf even => ?_⟩⟩
  all_goals simp only [exec, execPixelLine, hf]
  · rw [if_pos extra, extraLineReason, if_pos ok]
    rfl
  · rw [if_pos extra, extraLineReason, bad]
    cases Config.extraBadLineIsCrc
    · exact .inr rfl
    · exact .inl rfl
  all_goals rw [if_neg (Nat.not_le.mpr within)]
  · rw [bad]
    rfl
  · rw [ok, range]
    rfl
  · rw [ok, range]
    refine ⟨_, rfl, fun i b hi hb => ?_, fun i b hi hb => ?_, fun i b hi hb => ?_, fun a hy hu hv => ?_⟩
    · exact Memory.read_writeLine_y wf within hi hb
    · exact Memory.read_writeLine_u wf (by omega) hi hb
    · exact Memory.read_writeLine_v wf hi hb
    · exact Memory.read_writeLine_of_outside wf hy hu hv

end Sys2Proof.Machine
end

section
/-! PROOFS. Frame ends, timeouts and the faults of a frame being filled (R117, R118, R121). -/

namespace Sys2Proof.Machine

open Sys2Proof

/-! ### What supersession, the start check and outcomes leave -/

@[simp] theorem Device.supersede_planner (d : Device) (m : PortId) : (d.supersede m).planner = d.planner :=
  (Device.supersede_rest d m).2.2.1

@[simp] theorem Device.supersede_ports (d : Device) (m : PortId) : (d.supersede m).ports = d.ports :=
  (Device.supersede_rest d m).1

@[simp] theorem Device.probeCheck_ports (d : Device) (zoom : Nat) : (d.probeCheck zoom).ports = d.ports := by
  unfold Device.probeCheck
  split <;> rfl

@[simp] theorem Device.takeOutcome_ports (d : Device) (m : PortId) (o : FrameOutcome) :
    (d.takeOutcome m o).ports = d.ports := by
  unfold Device.takeOutcome
  split
  · split
    · rfl
    · split
      · split
        · rfl
        · exact Device.probeCheck_ports _ _
      all_goals rfl
  · rfl

@[simp] theorem Device.takeOutcome_role (d : Device) (m n : PortId) (o : FrameOutcome) :
    (d.takeOutcome m o).role n = d.role n := by
  unfold Device.takeOutcome
  split
  · split
    · rfl
    · split
      · split
        · rfl
        · rw [Device.role, Device.probeCheck_planner]; rfl
      all_goals rfl
  · rfl

/-- Every slot that is FILLING is one that was. -/
def Device.NoNewFills (d e : Device) : Prop := ∀ y ∈ e.slots, y.state = .filling → y ∈ d.slots

theorem Device.NoNewFills.of_slots {d e : Device} (h : e.slots = d.slots) : d.NoNewFills e := fun _ hy _ => h ▸ hy

theorem Device.NoNewFills.trans {d e f : Device} (h : d.NoNewFills e) (g : e.NoNewFills f) : d.NoNewFills f :=
  fun y hy hs => h y (g y hy hs) hs

/-- Slots changed one by one, each left or not FILLING. -/
theorem Device.NoNewFills.of_map {d e : Device} {f : Slot → Slot} (h : e.slots = d.slots.map f)
    (hf : ∀ x, f x = x ∨ (f x).state ≠ .filling) : d.NoNewFills e := by
  intro y hy hs
  rw [h, List.mem_map] at hy
  obtain ⟨x, hx, rfl⟩ := hy
  obtain same | other := hf x
  · rw [same]; exact hx
  · exact absurd hs other

theorem Device.supersede_noNewFills (d : Device) (m : PortId) : d.NoNewFills (d.supersede m) := by
  unfold Device.supersede
  split
  · exact .of_slots rfl
  · refine .of_map rfl fun x => ?_
    split
    · exact .inr (by simp [Slot.free, Slot.freed])
    · exact .inl rfl

theorem Device.holdSlot_noNewFills (d : Device) (id : Nat) : d.NoNewFills (d.holdSlot id) := by
  refine .of_map rfl fun x => ?_
  dsimp only
  split
  · exact .inr SlotState.noConfusion
  · exact .inl rfl

theorem Device.probeCheck_noNewFills (d : Device) (zoom : Nat) : d.NoNewFills (d.probeCheck zoom) := by
  unfold Device.probeCheck
  split
  · exact ((Device.holdSlot_noNewFills d _).trans (Device.holdSlot_noNewFills _ _)).trans (.of_slots rfl)
  · exact .of_slots rfl

theorem Device.takeOutcome_noNewFills (d : Device) (m : PortId) (o : FrameOutcome) :
    d.NoNewFills (d.takeOutcome m o) := by
  unfold Device.takeOutcome
  split
  · split
    · exact .of_slots rfl
    · split
      · split
        · exact .of_slots rfl
        · exact (Device.NoNewFills.of_slots rfl).trans (Device.probeCheck_noNewFills _ _)
      all_goals exact .of_slots rfl
  · exact .of_slots rfl

/-! ### A good frame (R117, R121) -/

/-- R121: the port's health after a good frame: PORT_RECOVERED where it ends a stall. -/
theorem Device.goodPeriod_eq (d : Device) (m : PortId) (k : Nat) :
    let q := d.port m
    let run := min 2 (q.goodRun + 1)
    let counted := d.onPort m fun z =>
      { z with badPeriods := 0, goodRun := run, allowance := if run = 2 then .available else q.allowance,
               state := if run = 2 ∧ q.state = .stalled then .linked else q.state,
               stallAge := if run = 2 ∧ q.state = .stalled then 0 else q.stallAge }
    d.goodPeriod m k =
      if run = 2 ∧ q.state = .stalled then counted.raise .portRecovered (EventDetail.ofPort m (some k) none)
      else counted := by
  simp only [Device.goodPeriod, Device.onPort_port, Device.onPort_onPort]
  by_cases twice : min 2 ((d.port m).goodRun + 1) = 2
  · by_cases stalled : (d.port m).state = .stalled
    · simp only [twice, stalled, and_self, if_true]
      exact congrArg (fun e => Device.raise e .portRecovered _) (Device.onPort_congr d m (by simp [twice]))
    · simp only [twice, stalled, and_false, if_true, if_false]
      exact Device.onPort_congr d m (by simp [twice])
  · simp only [twice, false_and, if_false]
    exact Device.onPort_congr d m rfl

/-- R117, R129: the slot READY, with the supersession check. -/
def Device.frameStored (d : Device) (m : PortId) (id : Nat) : Device :=
  Device.supersede
    (Device.onPort
      { d with slots := d.slots.map fun y => if y.id = id then { y with state := .ready, useCount := 0 } else y }
      m fun z => { z with filling := none }) m

/-- R117, R64: and the start check of the ACTIVE and the DEST port. -/
def Device.frameChecked (d : Device) (m : PortId) (id : Nat) : Device :=
  if d.role m = .active ∨ d.role m = .dest then (d.frameStored m id).probeCheck d.planner.applied
  else d.frameStored m id

/-- R117, R121: and the counts of the port. -/
def Device.frameCounted (d : Device) (m : PortId) (id exposure : Nat) : Device :=
  let q := d.port m
  let run := min 2 (q.goodRun + 1)
  (d.frameChecked m id).onPort m fun z =>
    { z with newestExposure := exposure, good := min 65535 (q.good + 1), badPeriods := 0, goodRun := run,
             allowance := if run = 2 then .available else q.allowance,
             state := if run = 2 ∧ q.state = .stalled then .linked else q.state,
             stallAge := if run = 2 ∧ q.state = .stalled then 0 else q.stallAge }

/-- R117, R121: and PORT_RECOVERED. -/
def Device.frameTold (d : Device) (m : PortId) (id exposure k : Nat) : Device :=
  if min 2 ((d.port m).goodRun + 1) = 2 ∧ (d.port m).state = .stalled then
    (d.frameCounted m id exposure).raise .portRecovered (EventDetail.ofPort m (some k) none)
  else d.frameCounted m id exposure

/-- R117, R62: and the outcome heard by the View Planner. -/
def Device.frameHeard (d : Device) (m : PortId) (id : Nat) (x : Slot) : Device :=
  (d.frameTold m id x.exposure (x.period.getD 0)).takeOutcome m (.good x.settled)

theorem Device.frameChecked_planner (d : Device) (m : PortId) (id : Nat) :
    (d.frameChecked m id).planner = d.planner := by
  have stored : (d.frameStored m id).planner = d.planner := Device.supersede_planner _ m
  unfold Device.frameChecked
  split
  · rw [Device.probeCheck_planner, stored]
  · exact stored

theorem Device.frameChecked_ports (d : Device) (m : PortId) (id : Nat) :
    (d.frameChecked m id).ports = (d.onPort m fun z => { z with filling := none }).ports := by
  have stored : (d.frameStored m id).ports = (d.onPort m fun z => { z with filling := none }).ports :=
    Device.supersede_ports _ m
  unfold Device.frameChecked
  split
  · rw [Device.probeCheck_ports, stored]
  · exact stored

theorem Device.frameChecked_port (d : Device) (m : PortId) (id : Nat) :
    (d.frameChecked m id).port m = { d.port m with filling := none } := by
  rw [Device.port, Device.frameChecked_ports]
  exact Device.onPort_port d m _

theorem Device.frameTold_planner (d : Device) (m : PortId) (id exposure k : Nat) :
    (d.frameTold m id exposure k).planner = d.planner := by
  unfold Device.frameTold
  split <;> exact Device.frameChecked_planner d m id

theorem Device.frameHeard_role (d : Device) (m : PortId) (id : Nat) (x : Slot) :
    (d.frameHeard m id x).role m = d.role m := by
  rw [Device.frameHeard, Device.takeOutcome_role, Device.role, Device.frameTold_planner, Device.role]

/-- R117: the frame end of a good frame, stage by stage. -/
theorem Device.completeFrame_eq (d : Device) (m : PortId) (f : Fill) (x : Slot) :
    d.completeFrame m f x =
      if d.role m = .cold then
        { d.frameHeard m f.slot x with slots := (d.frameHeard m f.slot x).slots.map fun y =>
            if y.id = f.slot ∧ y.state = .ready then Slot.freed y.id else y }
      else d.frameHeard m f.slot x := by
  have checked : (d.frameStored m f.slot).frameReady m = d.frameChecked m f.slot := by
    unfold Device.frameReady
    rw [Device.role, show (d.frameStored m f.slot).planner = d.planner from Device.supersede_planner _ m]
    rfl
  have told : Device.goodPeriod ((d.frameChecked m f.slot).onPort m fun q =>
      { q with newestExposure := x.exposure, good := bump q.good }) m (x.period.getD 0) =
        d.frameTold m f.slot x.exposure (x.period.getD 0) := by
    rw [Device.goodPeriod_eq]
    simp only [Device.onPort_port, Device.onPort_onPort, Device.frameChecked_port]
    unfold Device.frameTold Device.frameCounted
    have counted {g h : ModulePort → ModulePort}
        (same : g { d.port m with filling := none } = h { d.port m with filling := none }) :
        (d.frameChecked m f.slot).onPort m g = (d.frameChecked m f.slot).onPort m h :=
      Device.onPort_congr _ m (by rw [Device.frameChecked_port]; exact same)
    exact if_congr Iff.rfl (congrArg (fun e => Device.raise e .portRecovered _) (counted rfl)) (counted rfl)
  have freed (l : List Slot) : (l.map fun y => if y.id = f.slot then (if y.state = .ready then y.free else y) else y) =
      l.map fun y => if y.id = f.slot ∧ y.state = .ready then Slot.freed y.id else y := by
    refine List.map_congr_left fun y _ => ?_
    rw [ite_and]
    rfl
  calc d.completeFrame m f x
      = (let heard := ((((d.frameStored m f.slot).frameReady m).onPort m fun q =>
            { q with newestExposure := x.exposure, good := bump q.good }).goodPeriod m
              (x.period.getD 0)).takeOutcome m (.good x.settled)
          if heard.role m = .cold then heard.onSlot f.slot fun y => if y.state = .ready then y.free else y
          else heard) := rfl
    _ = _ := by
      rw [checked, told, ← Device.frameHeard]
      dsimp only
      rw [Device.frameHeard_role, Device.onSlot, freed]

theorem Device.completeFrame_ports (d : Device) (m : PortId) (f : Fill) (x : Slot) :
    (d.completeFrame m f x).ports = (d.frameCounted m f.slot x.exposure).ports := by
  have told : (d.frameTold m f.slot x.exposure (x.period.getD 0)).ports =
      (d.frameCounted m f.slot x.exposure).ports := by
    unfold Device.frameTold
    split <;> rfl
  have heard : (d.frameHeard m f.slot x).ports = (d.frameCounted m f.slot x.exposure).ports :=
    (Device.takeOutcome_ports _ _ _).trans told
  rw [Device.completeFrame_eq]
  split <;> exact heard

theorem Device.completeFrame_port_of_ne (d : Device) {m n : PortId} (f : Fill) (x : Slot) (h : n ≠ m) :
    (d.completeFrame m f x).port n = d.port n := by
  rw [Device.port, Device.completeFrame_ports]
  refine (Device.onPort_port_of_ne _ _ h).trans ?_
  rw [Device.port, Device.frameChecked_ports]
  exact Device.onPort_port_of_ne d _ h

/-- R117, R121: what a good frame makes of its port. -/
theorem Device.completeFrame_port (d : Device) (m : PortId) (f : Fill) (x : Slot) :
    let q := d.port m
    let run := min 2 (q.goodRun + 1)
    (d.completeFrame m f x).port m =
      { q with
        filling := none, newestExposure := x.exposure, good := min 65535 (q.good + 1), badPeriods := 0, goodRun := run
        allowance := if run = 2 then .available else q.allowance
        state := if run = 2 ∧ q.state = .stalled then .linked else q.state
        stallAge := if run = 2 ∧ q.state = .stalled then 0 else q.stallAge } := by
  dsimp only
  rw [Device.port, Device.completeFrame_ports]
  refine (Device.onPort_port _ _ _).trans ?_
  rw [Device.frameChecked_port]

/-- R117: the slot of a frame that has ended is not FILLING. -/
theorem Device.completeFrame_not_filling (d : Device) (m : PortId) (f : Fill) (x : Slot) :
    ∀ y ∈ (d.completeFrame m f x).slots, y.id = f.slot → y.state ≠ .filling := by
  let ready : Device :=
    { d with slots := d.slots.map fun y => if y.id = f.slot then { y with state := .ready, useCount := 0 } else y }
  have stored : ready.NoNewFills (d.frameStored m f.slot) :=
    Device.NoNewFills.trans (.of_slots rfl) (Device.supersede_noNewFills _ m)
  have checked : ready.NoNewFills (d.frameChecked m f.slot) := by
    unfold Device.frameChecked
    split
    · exact stored.trans (Device.probeCheck_noNewFills _ _)
    · exact stored
  have told : ready.NoNewFills (d.frameTold m f.slot x.exposure (x.period.getD 0)) := by
    unfold Device.frameTold
    split <;> exact checked.trans (.of_slots rfl)
  have heard : ready.NoNewFills (d.frameHeard m f.slot x) := told.trans (Device.takeOutcome_noNewFills _ _ _)
  have ended : ready.NoNewFills (d.completeFrame m f x) := by
    rw [Device.completeFrame_eq]
    split
    · refine heard.trans (.of_map rfl fun y => ?_)
      split
      · exact .inr SlotState.noConfusion
      · exact .inl rfl
    · exact heard
  intro y hy hid hs
  obtain ⟨z, -, hz⟩ := List.mem_map.mp (ended y hy hs)
  split at hz
  · rw [← hz] at hs
    exact SlotState.noConfusion hs
  · next other => exact other (hz ▸ hid)

/-- R118: the frame that faults: its slot freed, FRAME_FAULT and the counts. -/
theorem Device.faultFill_eq {d : Device} (m : PortId) {f : Fill} (r : FaultReason) {x : Slot} {k : Nat}
    (hx : d.slot? f.slot = some x) (hk : x.period = some k) :
    d.faultFill m f r =
      (((Device.onPort
          { d with slots := d.slots.map fun y => if y.id = f.slot then Slot.freed y.id else y } m
          fun q => { q with filling := none }).raise .frameFault
        (EventDetail.ofPort m (some k) (some r.number))).onPort m fun q =>
        { q with faulted := min 65535 (q.faulted + 1) }).badPeriod m k .faulted := by
  simp only [Device.faultFill, hx, Option.bind_some, hk, Option.getD_some]
  rfl

theorem Device.takeFrameEnd_eq {d : Device} {m : PortId} {f : Fill} {x : Slot} (hf : (d.port m).filling = some f)
    (hx : d.slot? f.slot = some x) :
    d.takeFrameEnd m =
      if f.lines < (d.frameSize m).2 then d.faultFill m f .short else d.completeFrame m f x := by
  simp only [Device.takeFrameEnd, hf, hx]

/-- R117: the frame end of a whole frame. -/
theorem exec_frameEnd_of_whole {s : State} {m : PortId} {f : Fill} {x : Slot} (hf : (s.dev.port m).filling = some f)
    (hx : s.dev.slot? f.slot = some x) (whole : (s.dev.frameSize m).2 ≤ f.lines) :
    exec (.frameEnd m) s = .next (s.withDevice (s.dev.completeFrame m f x)) :=
  congrArg (fun d => Host.Outcome.next (s.withDevice d))
    ((Device.takeFrameEnd_eq hf hx).trans (if_neg (Nat.not_lt.mpr whole)))

/-- Settles O37: frame ends, timeouts and faults. -/
theorem framesEndGoodOrFaulted : Obligations.FramesEndGoodOrFaulted := by
  refine ⟨fun m s => ⟨fun hf => ⟨?_, ?_⟩, fun f x hf hx => ⟨fun early => ?_, fun c hc => ?_, fun whole k hk => ?_,
    fun whole => ?_⟩⟩, fun d m f r x k hx hk => ?_⟩
  · have stays : s.dev.takeFrameEnd m = s.dev := by simp only [Device.takeFrameEnd, hf]
    exact congrArg (fun d => Host.Outcome.next (s.withDevice d)) stays
  · have none : s.dev.fillDue m = none := by rw [Device.fillDue, hf, Option.filter_none]
    simp only [exec, execFillTimeout, none]
  · exact congrArg (fun d => Host.Outcome.next (s.withDevice d))
      ((Device.takeFrameEnd_eq hf hx).trans (if_pos early))
  · have limit : s.dev.fillLimit m f = f.start + 2 * c.readout := by simp only [Device.fillLimit, hc]
    simp only [exec, execFillTimeout, Device.fillDue, hf, Option.filter_some, limit, decide_eq_true_eq]
    by_cases due : f.start + 2 * c.readout ≤ s.dev.now
    · rw [if_pos due, if_pos due]
      rfl
    · rw [if_neg due, if_neg due]
  · rw [exec_frameEnd_of_whole hf hx whole, Device.completeFrame_eq, Device.frameHeard, hk]
    rfl
  · have keeps := (Device.completeFrame_portKeeps s.dev m f x).keeps
    refine ⟨_, exec_frameEnd_of_whole hf hx whole, rfl, rfl, rfl, Device.completeFrame_not_filling s.dev m f x, ?_⟩
    rw [show (s.withDevice (s.dev.completeFrame m f x)).dev = s.dev.completeFrame m f x from rfl,
      Device.completeFrame_port]
    refine ⟨rfl, rfl, rfl, rfl, rfl, fun twice => ?_, fun once => ?_, rfl, rfl, rfl, rfl, rfl, rfl, rfl, rfl,
      fun n hn => Device.completeFrame_port_of_ne s.dev f x hn, keeps.cal, keeps.ctl, keeps.motion, keeps.buffers,
      keeps.link⟩
    · have two : min 2 ((s.dev.port m).goodRun + 1) = 2 := by omega
      exact ⟨if_pos two, fun stalled => if_pos ⟨two, stalled⟩⟩
    · have one : min 2 ((s.dev.port m).goodRun + 1) ≠ 2 := by omega
      exact ⟨if_neg one, if_neg fun h => one h.1⟩
  · rw [Device.faultFill_eq m r hx hk]
    cases r <;> rfl

end Sys2Proof.Machine
end

section
/-! PROOFS. Allocation, holding, releasing and supersession of frame slots (8.2 to 8.4), for O39. -/

namespace Sys2Proof.Machine

open Sys2Proof

/-! ### Slots by number -/

/-- In a list in the order of the slot numbers, the slot found is the one of least number. -/
theorem Slot.find?_of_least {l : List Slot} {p : Slot → Bool} {x : Slot} (sorted : (l.map Slot.id).Pairwise (· < ·))
    (hx : x ∈ l) (hp : p x = true) (least : ∀ y ∈ l, p y = true → x.id ≤ y.id) : l.find? p = some x := by
  induction l with
  | nil => cases hx
  | cons z rest ih =>
    obtain ⟨first, behind⟩ := List.pairwise_cons.mp sorted
    by_cases hz : p z = true
    · obtain rfl | later := List.mem_cons.mp hx
      · exact List.find?_cons_of_pos hz
      · have := first x.id (List.mem_map_of_mem later)
        have := least z List.mem_cons_self hz
        omega
    · rw [List.find?_cons_of_neg hz]
      obtain rfl | later := List.mem_cons.mp hx
      · exact absurd hp hz
      · exact ih behind later fun y hy => least y (List.mem_cons_of_mem z hy)

theorem Device.ids_sorted {d : Device} (h : d.slots.map Slot.id = List.range 12) :
    (d.slots.map Slot.id).Pairwise (· < ·) := h ▸ List.pairwise_lt_range

theorem Device.slot?_of_mem {d : Device} (h : d.slots.map Slot.id = List.range 12) {x : Slot} (hx : x ∈ d.slots) :
    d.slot? x.id = some x :=
  Slot.find?_of_least (Device.ids_sorted h) hx (decide_eq_true rfl) fun _ _ hy => (of_decide_eq_true hy).ge

theorem Device.lowestFree_of_least {d : Device} (h : d.slots.map Slot.id = List.range 12) {x : Slot} (hx : x ∈ d.slots)
    (free : x.state = .free) (least : ∀ y ∈ d.slots, y.state = .free → x.id ≤ y.id) : d.lowestFree = some x :=
  Slot.find?_of_least (Device.ids_sorted h) hx (decide_eq_true free) fun y hy hf => least y hy (of_decide_eq_true hf)

/-! ### Releases (R131) -/

/-- R131 step 1: whether a slot of a port released to use count 0 becomes FREE. -/
theorem Device.releaseFrees_iff (d : Device) (m : PortId) :
    d.releaseFrees (some m) = true ↔ d.mode = .stopping ∨ d.role m = .cold ∨ (d.port m).hasLink = false := by
  simp only [Device.releaseFrees, Bool.or_eq_true, Bool.not_eq_true', decide_eq_true_eq, or_assoc]
  rfl

/-- R131: the release of a HELD slot of a port. -/
theorem Device.releaseSlot_of_held {d : Device} (h : d.slots.map Slot.id = List.range 12) {x : Slot} {m : PortId}
    (hx : x ∈ d.slots) (held : x.state = .held) (owner : x.owner = some m) :
    d.releaseSlot x.id =
      if 1 < x.useCount then d.onSlot x.id fun y => { y with useCount := y.useCount - 1 }
      else if d.releaseFrees (some m) then d.onSlot x.id Slot.free
      else (d.onSlot x.id fun y => { y with state := .ready, useCount := 0 }).supersede m := by
  rw [Device.releaseSlot, Device.slot?_of_mem h hx]
  simp only [held, owner, ne_eq, not_true_eq_false, if_false]

/-! ### Supersession (R134) -/

theorem Device.newestDue_eq_some {d : Device} {m : PortId} {k : Nat} {x : Slot} (hx : d.HoldsFrame m k x)
    (due : k ≤ d.composePoint) (newest : ∀ y j, d.HoldsFrame m j y → j ≤ d.composePoint → j ≤ k) :
    d.newestDue m = some k := by
  refine largestWhere_eq_some (Device.mem_completePeriods.mpr ⟨x, hx⟩) (decide_eq_true due) fun j hj kept => ?_
  obtain ⟨y, hy⟩ := Device.mem_completePeriods.mp hj
  exact newest y j hy (of_decide_eq_true kept)

theorem Device.newestDue_eq_none {d : Device} {m : PortId}
    (none_due : ∀ x k, d.HoldsFrame m k x → ¬ k ≤ d.composePoint) : d.newestDue m = none := by
  refine largestWhere_eq_none_iff.mpr fun k hk kept => ?_
  obtain ⟨x, hx⟩ := Device.mem_completePeriods.mp hk
  exact none_due x k hx (of_decide_eq_true kept)

/-- R134: the READY slots of the port below the newest due period become FREE. -/
theorem Device.supersede_of_newest {d : Device} {m : PortId} {p : Nat} (h : d.newestDue m = some p) :
    d.supersede m =
      { d with
        slots := d.slots.map fun y =>
          if y.owner = some m ∧ y.state = .ready ∧ y.period.getD 0 < p then Slot.freed y.id else y } := by
  rw [Device.supersede, h]
  dsimp only
  congr 1
  refine List.map_congr_left fun y _ => if_congr ?_ rfl rfl
  rw [Bool.and_eq_true, Bool.and_eq_true, Slot.ownedBy_iff, decide_eq_true_eq, decide_eq_true_eq, and_assoc]

/-- Settles O39: allocation, holds, releases and supersession. -/
theorem slotsAreAllocatedHeldAndReleased : Obligations.SlotsAreAllocatedHeldAndReleased := by
  intro d m ids
  refine ⟨fun k centre exposure settled x hx free least below => ?_, fun k centre exposure settled quota =>
    Device.allocate_at_quota quota k centre exposure settled, fun id => rfl, fun x hx held owner =>
    ⟨fun shared => ?_, fun last frees => ?_, fun last running warm link => ?_⟩,
    fun newest x due bound => ?_, fun none_due => ?_⟩
  · rw [Device.allocate_of_free below (Device.lowestFree_of_least ids hx free least), Device.onSlot]
    congr 3
    funext y
    split
    · next same => rw [same]
    · rfl
  · rw [Device.releaseSlot_of_held ids hx held owner, if_pos shared]
    rfl
  · rw [Device.releaseSlot_of_held ids hx held owner, if_neg (Nat.not_lt.mpr last),
      if_pos ((d.releaseFrees_iff m).mpr frees)]
    rfl
  · have kept : ¬ d.releaseFrees (some m) = true := by
      rw [d.releaseFrees_iff]
      rintro (stopping | cold | unlinked)
      · exact running stopping
      · exact warm cold
      · exact Bool.false_ne_true (unlinked.symm.trans link)
    rw [Device.releaseSlot_of_held ids hx held owner, if_neg (Nat.not_lt.mpr last), if_neg kept]
    rfl
  · obtain ⟨hx, owner, complete, period, reached⟩ := due
    refine Device.supersede_of_newest (Device.newestDue_eq_some ⟨hx, owner, complete, period⟩ reached ?_)
    rintro y j ⟨hy, yowner, ycomplete, yperiod⟩ yreached
    exact bound y j ⟨hy, yowner, ycomplete, yperiod, yreached⟩
  · have none : d.newestDue m = none := Device.newestDue_eq_none fun x k ⟨hx, owner, complete, period⟩ reached =>
      none_due x k ⟨hx, owner, complete, period, reached⟩
    rw [Device.supersede, none]

end Sys2Proof.Machine
end

section
/-! PROOFS. The reports of the Module Ports (4.8, R54, R70 to R72) and the applied zoom (R58), for O40. -/

namespace Sys2Proof.Machine

open Sys2Proof

/-! ### Roles (R53) -/

theorem Device.standbyRole_eq (d : Device) (m : PortId) :
    d.standbyRole m = if ∃ c, (d.port m).config = some c ∧ c.policy = .warm then .warm else .cold := by
  unfold Device.standbyRole
  rcases (d.port m).config with _ | c
  · simp
  · cases hp : c.policy <;> simp [hp]

theorem Device.standbyRole_ne_active (d : Device) (m : PortId) : d.standbyRole m ≠ .active := by
  rw [Device.standbyRole_eq]
  split <;> exact Role.noConfusion

theorem Device.restRole_ne_active (d : Device) (m : PortId) : d.restRole m ≠ .active := by
  unfold Device.restRole
  split
  · exact d.standbyRole_ne_active m
  · exact Role.noConfusion

/-- R53, R135: the slots and the fill of a port that takes a role. -/
def Device.freedFor (d : Device) (m : PortId) (r : Role) : Device :=
  if r = .cold ∧ d.mode = .streaming then d.freeUnheld m else d

theorem Device.freedFor_of_streaming {d : Device} (hm : d.mode = .streaming) (m : PortId) (r : Role) :
    d.freedFor m r = if r = .cold then d.freeUnheld m else d := by
  simp only [Device.freedFor, hm, and_true]

/-- R53: a role taken. -/
theorem Device.setRole_eq (d : Device) (m : PortId) (r : Role) :
    d.setRole m r = { d.freedFor m r with planner := { d.planner with roles := d.planner.roles.set m r } } := by
  unfold Device.setRole Device.freedFor
  by_cases frees : r = .cold ∧ d.mode = .streaming
  · rw [if_pos frees, if_pos frees]
    rfl
  · rw [if_neg frees, if_neg frees]
    rfl

/-- R53: a port that takes ACTIVE or DEST frees nothing. -/
theorem Device.setRole_of_ne_cold (d : Device) (m : PortId) {r : Role} (h : r ≠ .cold) :
    d.setRole m r = d.onPlanner fun p => { p with roles := p.roles.set m r } := by
  rw [Device.setRole]
  exact if_neg fun both => h both.1

/-! ### The applied zoom (R58) -/

/-- R58: in STEADY the applied zoom is the nominal, held at the lower bound of the ACTIVE port. -/
theorem Device.recomputeApplied_of_steady {d : Device} {a : PortId} (hs : d.planner.state = some .steady)
    (ha : d.role a = .active) (unique : ∀ n, d.role n = .active → n = a) :
    d.recomputeApplied =
      d.onPlanner fun p => { p with applied := max d.planner.nominal (d.calOf a).lower } := by
  simp only [Device.recomputeApplied, hs, Device.appliedIn, Device.activePort_of_unique ha unique]

/-- R58: in NO_SOURCE the applied zoom is the nominal. -/
theorem Device.recomputeApplied_of_noSource {d : Device} (hs : d.planner.state = some .noSource) :
    d.recomputeApplied = d.onPlanner fun p => { p with applied := d.planner.nominal } := by
  simp only [Device.recomputeApplied, hs, Device.appliedIn]

/-! ### Reports (R54, R70 to R72) -/

/-- The role that R53 gives the port which makes a report: its standby role at a stall, COLD at a DOWN report. -/
def Device.roleAfterLoss (d : Device) (m : PortId) : LossReport → Role
  | .stalled => d.standbyRole m
  | .down _ => .cold

/-- A report is made by a port in the state that it reports. -/
def Device.Reporting (d : Device) (m : PortId) : LossReport → Prop
  | .stalled => (d.port m).state = .stalled
  | .down _ => (d.port m).hasLink = false

theorem Device.Reporting.restRole {d : Device} {m : PortId} {r : LossReport} (h : d.Reporting m r) :
    d.restRole m = d.roleAfterLoss m r := by
  unfold Device.restRole
  cases r with
  | stalled => exact if_pos (.inr h)
  | down cause =>
    refine if_neg fun linked => ?_
    exact Bool.false_ne_true (Eq.trans (Eq.symm h) ((ModulePort.hasLink_iff _).mpr linked))

theorem Device.roleAfterLoss_ne_active (d : Device) (m : PortId) (r : LossReport) : d.roleAfterLoss m r ≠ .active := by
  cases r with
  | stalled => exact d.standbyRole_ne_active m
  | down cause => exact Role.noConfusion

theorem Device.reportLoss_of_streaming {d : Device} (hm : d.mode = .streaming) (m : PortId) (r : LossReport) :
    d.reportLoss m r =
      match d.role m, d.planner.context with
      | .active, some c => (d.changeActive (some m) c.dest .forced d.period).recomputeApplied
      | .active, none => d.loseActive m r
      | .dest, _ => d.abort m r
      | _, _ =>
        match r with
        | .stalled => d
        | .down _ => (d.setRole m .cold).recomputeApplied := by
  unfold Device.reportLoss
  exact if_neg (not_not.mpr hm)

/-- R54: a report of a port that is neither ACTIVE nor DEST. -/
theorem Device.reportLoss_of_idle {d : Device} (hm : d.mode = .streaming) {m : PortId} (ha : d.role m ≠ .active)
    (hd : d.role m ≠ .dest) (r : LossReport) :
    d.reportLoss m r =
      match r with
      | .stalled => d
      | .down _ => (d.setRole m .cold).recomputeApplied := by
  rw [Device.reportLoss_of_streaming hm]
  split
  · next h _ => exact absurd h ha
  · next h _ => exact absurd h ha
  · next h => exact absurd h hd
  · rfl

/-- R61, R67, R71: a change of the ACTIVE port. -/
theorem Device.changeActive_eq (d : Device) (a n : PortId) (reason : ChangeReason) (k : Nat) :
    d.changeActive (some a) n reason k = Device.raise
      { d.freedFor a (d.restRole a) with planner := { d.planner with
          roles := (d.planner.roles.set a (d.restRole a)).set n .active
          state := some .steady
          context := none
          lastChange := some { old := some a, new := n, reason := reason, period := k } } }
      .handoffDone (EventDetail.ofPort n (some k) (some reason.number)) := by
  unfold Device.changeActive
  dsimp only
  rw [Device.setRole_of_ne_cold _ n Role.noConfusion, Device.setRole_eq]
  rfl

/-- R61, R67, R71: a change of the ACTIVE port in STREAMING, with the applied zoom recomputed. -/
theorem Device.changeActive_applied {d : Device} {a n : PortId} {r : Role}
    (rest : d.restRole a = r) (unique : ∀ q, d.role q = .active → q = a) (reason : ChangeReason) (k : Nat) :
    (d.changeActive (some a) n reason k).recomputeApplied = Device.withEvents
      { d.freedFor a r with planner := { d.planner with
          roles := (d.planner.roles.set a r).set n .active
          state := some .steady
          context := none
          lastChange := some { old := some a, new := n, reason := reason, period := k }
          applied := max d.planner.nominal (d.calOf n).lower } }
      (d.events.raise d.now .handoffDone (EventDetail.ofPort n (some k) (some reason.number))) := by
  have not_active : r ≠ .active := rest ▸ d.restRole_ne_active a
  rw [Device.changeActive_eq, rest, Device.recomputeApplied_of_steady (a := n) rfl]
  · unfold Device.freedFor
    split <;> rfl
  · exact PerPort.get_set _ n _
  · intro q hq
    by_contra other
    have old : ((d.planner.roles.set a r).get q) = .active := (PerPort.get_set_of_ne _ _ other).symm.trans hq
    rw [PerPort.get_set_eq] at old
    split at old
    · exact not_active old
    · next hne => exact hne (unique q old)

/-- R70: an abort at a report of the DEST port. -/
theorem Device.abort_of_reporting {d : Device} {m a : PortId} {r : LossReport}
    (hr : d.Reporting m r) (hd : d.role m = .dest) (ha : d.role a = .active)
    (unique : ∀ q, d.role q = .active → q = a) :
    d.abort m r = Device.withEvents
      { d.freedFor m (d.roleAfterLoss m r) with planner := { d.planner with
          roles := d.planner.roles.set m (d.roleAfterLoss m r)
          bars := d.planner.bars.set m d.ctl.handoff.backoff
          state := some .steady
          context := none
          applied := max d.planner.nominal (d.calOf a).lower } }
      (d.events.raise d.now .handoffAborted (EventDetail.ofPort m (some d.period) (some r.number))) := by
  have ended : d.abort m r = Device.recomputeApplied (Device.withEvents
      { d.freedFor m (d.roleAfterLoss m r) with planner := { d.planner with
          roles := d.planner.roles.set m (d.roleAfterLoss m r)
          bars := d.planner.bars.set m d.ctl.handoff.backoff
          state := some .steady
          context := none } }
      (d.events.raise d.now .handoffAborted (EventDetail.ofPort m (some d.period) (some r.number)))) := by
    unfold Device.abort
    rw [hr.restRole, Device.setRole_eq]
    unfold Device.freedFor
    split <;> rfl
  have differ : a ≠ m := by
    rintro rfl
    exact Role.noConfusion (ha.symm.trans hd)
  rw [ended, Device.recomputeApplied_of_steady (a := a) rfl]
  · unfold Device.freedFor
    split <;> rfl
  · exact (PerPort.get_set_of_ne _ _ differ).trans ha
  · intro q hq
    have old : (d.planner.roles.set m (d.roleAfterLoss m r)).get q = .active := hq
    rw [PerPort.get_set_eq] at old
    split at old
    · exact absurd old (d.roleAfterLoss_ne_active m r)
    · exact unique q old

/-- R72: the ACTIVE port goes down with no fallback candidate. -/
theorem Device.loseActive_noSource {d : Device} (m : PortId) (cause : DownCause)
    (hf : d.fallbackChoice = none) :
    d.loseActive m (.down cause) = Device.withEvents
      { d.freedFor m .cold with planner := { d.planner with
          roles := d.planner.roles.set m .cold
          state := some .noSource
          context := none
          applied := d.planner.nominal } }
      (d.events.raise d.now .noSource (EventDetail.ofPort m (some d.period) (some cause.number))) := by
  simp only [Device.loseActive, hf, Device.setRole_eq]
  rw [Device.recomputeApplied_of_noSource rfl]
  unfold Device.freedFor
  split <;> rfl

theorem Device.goodPeriod_planner (d : Device) (m : PortId) (k : Nat) : (d.goodPeriod m k).planner = d.planner := by
  rw [Device.goodPeriod_eq]
  split <;> rfl

/-- Settles O40: a report by the role of the port that makes it. -/
theorem lossReportsEndHandoffs : Obligations.LossReportsEndHandoffs := by
  intro d m r
  have settled (hm : d.mode = .streaming) (role : Role) : (d.setRole m role).recomputeApplied =
      Device.recomputeApplied { (if role = .cold then d.freeUnheld m else d) with planner :=
        { d.planner with roles := d.planner.roles.set m role } } :=
    congrArg Device.recomputeApplied (by rw [Device.setRole_eq, Device.freedFor_of_streaming hm])
  refine ⟨d.standbyRole_eq m, fun hm => ⟨if_pos hm, if_neg hm⟩, fun hm => ?_, fun hm ha hd => ?_,
    d.goodPeriod_planner m, fun hm hr => ?_⟩
  · rw [Device.reportLinked_eq, if_pos hm]
    exact settled hm _
  · have rests := Device.reportLoss_of_idle hm ha hd r
    cases r with
    | stalled => exact ⟨fun _ => rests, fun h => absurd rfl h⟩
    | down cause => exact ⟨fun h => LossReport.noConfusion h, fun _ => rests.trans (settled hm .cold)⟩
  · have reporting : d.Reporting m r := by cases r <;> exact hr
    refine ⟨fun a hd ha unique => ?_, fun c ha unique hc _ => ?_, fun ha unique hc hs => ⟨fun n hf => ?_,
      fun hf stalled => ?_, fun hf down => ?_⟩⟩
    all_goals rw [Device.reportLoss_of_streaming hm]
    · simp only [hd]
      rw [Device.abort_of_reporting reporting hd ha unique, Device.freedFor_of_streaming hm]
      cases r with
      | stalled => rfl
      | down cause => cases cause <;> rfl
    · simp only [ha, hc]
      rw [Device.changeActive_applied reporting.restRole unique, Device.freedFor_of_streaming hm]
      rfl
    all_goals simp only [ha, hc]
    · simp only [Device.loseActive, hf]
      rw [Device.changeActive_applied reporting.restRole unique, Device.freedFor_of_streaming hm]
      simp only [hs]
      rfl
    · subst stalled
      simp only [Device.loseActive, hf]
      rw [Device.recomputeApplied_of_steady hs ha unique]
      simp only [Device.onPlanner, hc]
    · cases r with
      | stalled => exact absurd rfl down
      | down cause =>
        rw [Device.loseActive_noSource m cause hf, Device.freedFor_of_streaming hm]
        cases cause <;> rfl

end Sys2Proof.Machine
end

section
/-! PROOFS. Stage 3 of a planning (4.3 to 4.8), the applied zoom and the sync set, for O44. -/

namespace Sys2Proof.Machine

open Sys2Proof

/-! ### Choices among ports -/

/-- R16 step 1, R59: the longest port of a set. -/
theorem Device.longest_eq_some {d : Device} {keep : PortId → Bool} {n : PortId} (hn : keep n = true)
    (longest : ∀ m, keep m = true → m ≠ n →
      (d.calOf m).base < (d.calOf n).base ∨ (d.calOf m).base = (d.calOf n).base ∧
        ((d.calOf n).lower < (d.calOf m).lower ∨ (d.calOf n).lower = (d.calOf m).lower ∧ n.toNat < m.toNat)) :
    d.longest (portsWhere keep) = some n := by
  rcases found : d.longest (portsWhere keep) with _ | m
  · exact absurd hn (Bool.eq_false_iff.mp (portsWhere_eq_nil_iff.mp (bestBy_eq_none_iff.mp found) n))
  · obtain ⟨hm, least⟩ := Device.longest_portsWhere found
    by_contra differ
    have apart : m ≠ n := fun same => differ (same ▸ rfl)
    have above := longest m hm apart
    have below := least n hn apart.symm
    omega

theorem Device.longest_eq_none {d : Device} {keep : PortId → Bool} (h : ∀ m, ¬ keep m = true) :
    d.longest (portsWhere keep) = none :=
  bestBy_eq_none_iff.mpr (portsWhere_eq_nil_iff.mpr fun m => Bool.eq_false_iff.mpr (h m))

/-! ### Destinations (R59) -/

/-- R59: a candidate that zooms in further, its upper threshold reached. -/
def Device.isUp (d : Device) (a n : PortId) : Prop :=
  d.isCandidate n = true ∧ (d.calOf a).base < (d.calOf n).base ∧ d.upOf n ≤ d.planner.nominal

/-- R59: a candidate that zooms out further, its lower bound reached. -/
def Device.isDown (d : Device) (a n : PortId) : Prop :=
  d.isCandidate n = true ∧ (d.calOf n).base < (d.calOf a).base ∧ (d.calOf n).lower ≤ d.planner.nominal

/-- A port of a set that is its longest. -/
def Device.isLongest (d : Device) (set : PortId → Prop) (n : PortId) : Prop :=
  set n ∧ ∀ m, set m → m ≠ n →
    (d.calOf m).base < (d.calOf n).base ∨ (d.calOf m).base = (d.calOf n).base ∧
      ((d.calOf n).lower < (d.calOf m).lower ∨ (d.calOf n).lower = (d.calOf m).lower ∧ n.toNat < m.toNat)

theorem Device.isUp_iff (d : Device) (a n : PortId) :
    (d.isCandidate n && decide ((d.calOf a).base < (d.calOf n).base) && decide (d.upOf n ≤ d.planner.nominal)) = true ↔
      d.isUp a n := by
  simp only [Bool.and_eq_true, decide_eq_true_eq, and_assoc, Device.isUp]

theorem Device.isDown_iff (d : Device) (a n : PortId) :
    (d.isCandidate n && decide ((d.calOf n).base < (d.calOf a).base) &&
      decide ((d.calOf n).lower ≤ d.planner.nominal)) = true ↔ d.isDown a n := by
  simp only [Bool.and_eq_true, decide_eq_true_eq, and_assoc, Device.isDown]

theorem Device.destination_up {d : Device} {a n : PortId} (h : d.isLongest (d.isUp a) n) :
    d.destination a = some (n, .up) := by
  have found := Device.longest_eq_some ((d.isUp_iff a n).mpr h.1) fun m hm => h.2 m ((d.isUp_iff a m).mp hm)
  simp only [Device.destination, found]

theorem Device.destination_not_up {d : Device} {a : PortId} (none_up : ∀ m, ¬ d.isUp a m) :
    d.destination a =
      if d.planner.nominal < d.downOf a then
        (d.longest (portsWhere fun n => d.isCandidate n && decide ((d.calOf n).base < (d.calOf a).base) &&
          decide ((d.calOf n).lower ≤ d.planner.nominal))).map fun n => (n, .down)
      else none := by
  have none_found := Device.longest_eq_none (d := d) fun m hm => none_up m ((d.isUp_iff a m).mp hm)
  simp only [Device.destination, none_found]

theorem Device.destination_down {d : Device} {a n : PortId} (none_up : ∀ m, ¬ d.isUp a m)
    (below : d.planner.nominal < d.downOf a) (h : d.isLongest (d.isDown a) n) :
    d.destination a = some (n, .down) := by
  rw [Device.destination_not_up none_up, if_pos below,
    Device.longest_eq_some ((d.isDown_iff a n).mpr h.1) fun m hm => h.2 m ((d.isDown_iff a m).mp hm), Option.map_some]

theorem Device.destination_none {d : Device} {a : PortId} (none_up : ∀ m, ¬ d.isUp a m)
    (none_down : d.downOf a ≤ d.planner.nominal ∨ ∀ m, ¬ d.isDown a m) : d.destination a = none := by
  rw [Device.destination_not_up none_up]
  split
  · next below =>
    have empty := none_down.resolve_left (Nat.not_le.mpr below)
    rw [Device.longest_eq_none fun m hm => empty m ((d.isDown_iff a m).mp hm), Option.map_none]
  · rfl

/-! ### STEADY (R59 to R61) -/

theorem Device.evaluate_of_steady {d : Device} (hs : d.planner.state = some .steady) (k : Nat) (run : Option Nat)
    (met : Bool) : d.evaluate k run met = d.evaluateSteady k run := by
  unfold Device.evaluate
  rw [hs]

/-- R60: the evaluation with the ACTIVE port LINKED. -/
theorem Device.evaluateSteady_of_linked {d : Device} {a : PortId} (ha : d.activePort = some a)
    (hl : (d.port a).state = .linked) (k : Nat) (run : Option Nat) :
    d.evaluateSteady k run =
      match d.destination a with
      | some (n, dir) => if d.planner.hold = 0 ∧ d.planner.guard = 0 then d.beginHandoff n dir k run else d
      | none => d := by
  unfold Device.evaluateSteady
  rw [ha]
  simp only [hl]
  rfl

/-- R61: the evaluation with the ACTIVE port STALLED. -/
theorem Device.evaluateSteady_of_stalled {d : Device} {a : PortId} (ha : d.activePort = some a)
    (hl : (d.port a).state = .stalled) (k : Nat) (run : Option Nat) :
    d.evaluateSteady k run =
      match d.fallbackChoice with
      | some n => d.changeActive (some a) n .fallback k
      | none => d := by
  unfold Device.evaluateSteady
  rw [ha]
  exact if_pos hl

/-- R60: PREPARE begins. -/
theorem Device.beginHandoff_eq (d : Device) (n : PortId) (dir : Direction) (k : Nat) (run : Option Nat) :
    d.beginHandoff n dir k run = Device.raise
      { d with planner := { d.planner with
          roles := d.planner.roles.set n .dest
          state := some .prepare
          context := some
            { dest := n, direction := dir, prepared := 0, elapsed := 0, deferral := 0, residual := none, step := 0 } } }
      .handoffStarted { port := some n, requestId := run, period := some k, reason := some dir.number, zooms := none } := by
  unfold Device.beginHandoff
  rw [Device.setRole_of_ne_cold d n Role.noConfusion]
  rfl

/-- R53: the role of a port that leaves ACTIVE or DEST. -/
theorem Device.restRole_eq (d : Device) (m : PortId) :
    d.restRole m = if (d.port m).hasLink then d.standbyRole m else .cold :=
  if_congr (ModulePort.hasLink_iff _).symm rfl rfl

/-! ### PREPARE and PROBE (R63, R65) -/

/-- R63 step 1: the nominal has moved back across the threshold. -/
theorem Device.reversed_iff {d : Device} {a : PortId} (ha : d.activePort = some a) (c : HandoffContext) :
    d.reversed c = true ↔
      match c.direction with
      | .up => d.planner.nominal < d.upOf c.dest
      | .down => d.downOf a ≤ d.planner.nominal := by
  unfold Device.reversed
  rw [ha]
  cases c.direction <;> exact decide_eq_true_iff

theorem Device.onPlanner_freedFor (d : Device) (f : Planner → Planner) (m : PortId) (r : Role) :
    (d.onPlanner f).freedFor m r = (d.freedFor m r).onPlanner f := by
  unfold Device.freedFor
  rw [Device.onPlanner_mode]
  split <;> rfl

/-- R69: an abandon of the hand-off with a given context. -/
theorem Device.abandon_eq {d : Device} {c : HandoffContext} (hc : d.planner.context = some c) (reason : AbandonReason)
    (k : Nat) :
    d.abandon reason k = Device.raise
      { d.freedFor c.dest (d.restRole c.dest) with planner := { d.planner with
          roles := d.planner.roles.set c.dest (d.restRole c.dest)
          state := some .steady
          context := none
          bars := if reason = .timeout then d.planner.bars.set c.dest d.ctl.handoff.backoff else d.planner.bars } }
      .handoffAbandoned (EventDetail.ofPort c.dest (some k) (some reason.number)) := by
  simp only [Device.abandon, hc, Device.setRole_eq]
  split <;> rfl

theorem Device.evaluate_of_prepare {d : Device} {c : HandoffContext} (hs : d.planner.state = some .prepare)
    (hc : d.planner.context = some c) (k : Nat) (run : Option Nat) (met : Bool) :
    d.evaluate k run met = d.evaluatePrepare c k := by
  unfold Device.evaluate
  rw [hs, hc]

theorem Device.evaluate_of_probe {d : Device} {c : HandoffContext} (hs : d.planner.state = some .probe)
    (hc : d.planner.context = some c) (k : Nat) (run : Option Nat) (met : Bool) :
    d.evaluate k run met = d.evaluateProbe c k run met := by
  unfold Device.evaluate
  rw [hs, hc]

theorem Device.evaluate_of_blend {d : Device} {c : HandoffContext} (hs : d.planner.state = some .blend)
    (hc : d.planner.context = some c) (k : Nat) (run : Option Nat) (met : Bool) :
    d.evaluate k run met = d.evaluateBlend c k run := by
  unfold Device.evaluate
  rw [hs, hc]

theorem Device.evaluate_of_noSource {d : Device} (hs : d.planner.state = some .noSource) (k : Nat) (run : Option Nat)
    (met : Bool) : d.evaluate k run met = d.evaluateNoSource k := by
  unfold Device.evaluate
  rw [hs]

/-- R64: a start check that leaves no probe in flight, or comes with one, changes nothing. -/
theorem Device.probeCheck_eq_self {d : Device} {zoom : Nat} (h : (d.probeCheck zoom).probe = none ∨ d.probe ≠ none) :
    d.probeCheck zoom = d := by
  obtain none | flying := h
  · unfold Device.probeCheck at none ⊢
    split at none
    · exact absurd none (Option.some_ne_none _)
    · rfl
  · exact Device.probeCheck_of_none (Device.probePair_eq_none (.inr (.inl flying))) zoom

/-- R64: the completion of the probe in flight has arrived. -/
theorem Device.completionArrived_iff (d : Device) (met : Bool) :
    d.completionArrived met = true ↔ d.probe ≠ none ∧ met = true := by
  rw [Device.completionArrived, Bool.and_eq_true, Option.isSome_iff_ne_none]

/-- R65: the PROBE evaluation without a reversal. -/
theorem Device.evaluateProbe_forward {d : Device} {c : HandoffContext} (forward : ¬ d.reversed c = true) (k : Nat)
    (run : Option Nat) (met : Bool) :
    d.evaluateProbe c k run met =
      (d.probeCheck (d.appliedIn .probe)).deferProbe c k run (d.completionArrived met) := by
  rw [Device.evaluateProbe, if_neg forward]

theorem Device.appliedIn_probe {d : Device} {a : PortId} (ha : d.activePort = some a) :
    d.appliedIn .probe = max d.planner.nominal (d.calOf a).lower := by
  simp only [Device.appliedIn, ha]

/-- R65 steps 3 and 4: what the deferral does where it is made. -/
theorem Device.deferProbe_of_idle {d : Device} {arrived : Bool} (h : d.probe = none ∨ arrived = true)
    (hold : d.planner.hold = 0) (c : HandoffContext) (k : Nat) (run : Option Nat) :
    d.deferProbe c k run arrived =
      if c.deferral + 1 < d.ctl.handoff.deferralLimit then
        d.onPlanner fun p => { p with context := some { c with deferral := c.deferral + 1 } }
      else
        let skipped := { c with deferral := c.deferral + 1, residual := some Residual.skip, step := 0 }
        Device.evaluateBlend (d.onPlanner fun p => { p with state := some .blend, context := some skipped }) skipped k
          run := by
  rw [Device.deferProbe, if_pos ⟨h, hold⟩]

/-! ### BLEND and NO_SOURCE (R67, R73) -/

theorem Device.evaluateBlend_before {d : Device} {c : HandoffContext} (h : c.step < d.ctl.handoff.blendLength) (k : Nat)
    (run : Option Nat) :
    d.evaluateBlend c k run = d.onPlanner fun p => { p with context := some { c with step := c.step + 1 } } := by
  rw [Device.evaluateBlend, if_pos h]

theorem Device.evaluateBlend_last {d : Device} {c : HandoffContext} (h : d.ctl.handoff.blendLength ≤ c.step) (k : Nat)
    (run : Option Nat) :
    d.evaluateBlend c k run = (d.changeActive d.activePort c.dest .blend k).evaluateSteady k run := by
  rw [Device.evaluateBlend, if_neg (Nat.not_lt.mpr h)]

/-- R73: a port becomes ACTIVE where none was. -/
theorem Device.changeActive_none (d : Device) (n : PortId) (reason : ChangeReason) (k : Nat) :
    d.changeActive none n reason k = Device.raise
      { d with planner := { d.planner with
          roles := d.planner.roles.set n .active
          state := some .steady
          context := none
          lastChange := some { old := none, new := n, reason := reason, period := k } } }
      .handoffDone (EventDetail.ofPort n (some k) (some reason.number)) := by
  unfold Device.changeActive
  dsimp only
  rw [Device.setRole_of_ne_cold d n Role.noConfusion]
  rfl

/-! ### The applied zoom and the sync set (R58, R77) -/

/-- R58: with an ACTIVE port, before a blend, the nominal held at its lower bound. -/
theorem Device.recomputeApplied_of_active {d : Device} {a : PortId} (ha : d.activePort = some a) {st : HandoffState}
    (hs : d.planner.state = some st) (h : st = .steady ∨ st = .prepare ∨ st = .probe) :
    d.recomputeApplied =
      d.onPlanner fun p => { p with applied := max d.planner.nominal (d.calOf a).lower } := by
  obtain rfl | rfl | rfl := h <;> simp only [Device.recomputeApplied, hs, Device.appliedIn, ha]

/-- R58: in a blend the nominal held at the lower bounds of both ports. -/
theorem Device.recomputeApplied_of_blend {d : Device} {a : PortId} {c : HandoffContext} (ha : d.activePort = some a)
    (hs : d.planner.state = some .blend) (hc : d.planner.context = some c) :
    d.recomputeApplied = d.onPlanner fun p =>
      { p with applied := max d.planner.nominal (max (d.calOf a).lower (d.calOf c.dest).lower) } := by
  simp only [Device.recomputeApplied, hs, Device.appliedIn, ha, hc, max_assoc]

theorem Device.mem_syncSet {d : Device} {k : Nat} {m : PortId} :
    m ∈ d.syncSet k ↔ d.role m = .active ∨ d.role m = .dest ∨
      d.role m = .warm ∧ ∃ c, (d.port m).config = some c ∧ k % c.divisor = 0 := by
  rw [Device.syncSet, mem_portsWhere]
  cases hr : d.role m
  case warm =>
    cases (d.port m).config <;> simp
  all_goals simp

/-- Settles O44: each state of the sequencer, the applied zoom and the sync set. -/
theorem evaluationOfAPlanning : Obligations.EvaluationOfAPlanning := by
  intro d k run met z lower base
  refine ⟨fun a ha unique => ?_, fun hs => ⟨?_, fun none => ?_, fun n hn => ?_⟩, fun m => Device.mem_syncSet,
    portsWhere_ascending _⟩
  · have active : d.activePort = some a := Device.activePort_of_unique ha unique
    have rests (m : PortId) (reason : ChangeReason) (n : PortId) : d.changeActive (some m) n reason k = Device.raise
        { (if (if (d.port m).hasLink then d.standbyRole m else .cold) = .cold ∧ d.mode = .streaming
            then d.freeUnheld m else d) with planner := { d.planner with
          roles := (d.planner.roles.set m (if (d.port m).hasLink then d.standbyRole m else .cold)).set n .active
          state := some .steady
          context := none
          lastChange := some { old := some m, new := n, reason := reason, period := k } } }
        .handoffDone (EventDetail.ofPort n (some k) (some reason.number)) := by
      rw [Device.changeActive_eq, Device.restRole_eq, Device.freedFor]
    refine ⟨fun hs hl => ⟨fun hold guard => ⟨fun n hn => ?_, fun n none_up below hn => ?_⟩,
      fun none_up none_down => ?_, fun stopped => ?_⟩,
      ⟨fun hs hl => ⟨fun none => ?_, fun n hn => ?_⟩, fun c hc => ⟨fun hs more => ?_, fun hs last => ?_,
        fun hs forward => ?_⟩⟩, fun c hc => ⟨fun hs back => ?_, fun hs forward more => ?_, fun hs forward last => ?_,
        fun hs => ?_⟩, fun hs => ?_⟩
    · rw [Device.evaluate_of_steady hs, Device.evaluateSteady_of_linked active hl, Device.destination_up hn]
      dsimp only
      rw [if_pos ⟨hold, guard⟩, Device.beginHandoff_eq]
      rfl
    · rw [Device.evaluate_of_steady hs, Device.evaluateSteady_of_linked active hl,
        Device.destination_down none_up below hn]
      dsimp only
      rw [if_pos ⟨hold, guard⟩, Device.beginHandoff_eq]
      rfl
    · rw [Device.evaluate_of_steady hs, Device.evaluateSteady_of_linked active hl,
        Device.destination_none none_up none_down]
    · rw [Device.evaluate_of_steady hs, Device.evaluateSteady_of_linked active hl]
      split
      · exact if_neg (by omega)
      · rfl
    · rw [Device.evaluate_of_steady hs, Device.evaluateSteady_of_stalled active hl, none]
    · rw [Device.evaluate_of_steady hs, Device.evaluateSteady_of_stalled active hl, hn]
      exact rests a .fallback n
    · rw [Device.evaluate_of_blend hs hc, Device.evaluateBlend_before more]
      simp only [Device.onPlanner, hs]
    · rw [Device.evaluate_of_blend hs hc, Device.evaluateBlend_last last, active]
      refine Eq.trans ?_ (Device.evaluate_of_steady rfl k run met).symm
      rw [rests]
      rfl
    · have straight : ¬ d.reversed c = true := mt (Device.reversed_iff active c).mp forward
      intro started arrived
      rw [Device.evaluate_of_probe hs hc, Device.evaluateProbe_forward straight, Device.appliedIn_probe active]
      have idle (h : started.probe = Option.none ∨ arrived) : started = d :=
        Device.probeCheck_eq_self (h.imp_right And.left)
      have deferred (h : started.probe = Option.none ∨ arrived) :
          d.probe = Option.none ∨ d.completionArrived met = true :=
        h.imp (fun none => idle h ▸ none) (d.completionArrived_iff met).mpr
      refine ⟨fun flying early => ?_, fun h hold => ?_, fun h hold few => ?_, fun h hold enough blends => ?_⟩
      · show started.deferProbe c k run _ = started
        rw [Device.deferProbe, if_neg]
        rintro ⟨none | comes, -⟩
        · exact flying none
        · exact early ((d.completionArrived_iff met).mp comes)
      all_goals
        show started.deferProbe c k run _ = _
        rw [idle h]
      · rw [Device.deferProbe, if_neg]
        omega
      · rw [Device.deferProbe_of_idle (deferred h) hold, if_pos few]
        simp only [Device.onPlanner, hs]
      · rw [Device.deferProbe_of_idle (deferred h) hold, if_neg (by omega)]
        dsimp only
        rw [Device.evaluateBlend_before]
        · rfl
        · exact blends
    · have reverses : d.reversed c = true := (Device.reversed_iff active c).mpr back
      obtain hs | hs := hs
      · rw [Device.evaluate_of_prepare hs hc, Device.evaluatePrepare, if_pos reverses, Device.abandon_eq rfl,
          Device.onPlanner_freedFor, Device.restRole_eq]
        rfl
      · rw [Device.evaluate_of_probe hs hc, Device.evaluateProbe, if_pos reverses, Device.abandon_eq hc,
          Device.restRole_eq]
        rfl
    · have straight : ¬ d.reversed c = true := mt (Device.reversed_iff active c).mp forward
      rw [Device.evaluate_of_prepare hs hc, Device.evaluatePrepare, if_neg straight, if_neg (by omega)]
      rfl
    · have straight : ¬ d.reversed c = true := mt (Device.reversed_iff active c).mp forward
      rw [Device.evaluate_of_prepare hs hc, Device.evaluatePrepare, if_neg straight, if_pos last,
        Device.abandon_eq rfl, Device.onPlanner_freedFor, Device.restRole_eq]
      rfl
    · rw [Device.recomputeApplied_of_blend active hs hc]
      rfl
    · obtain hs | hs | hs := hs
      · exact Device.recomputeApplied_of_active active hs (.inl rfl)
      · exact Device.recomputeApplied_of_active active hs (.inr (.inl rfl))
      · exact Device.recomputeApplied_of_active active hs (.inr (.inr rfl))
  · exact Device.recomputeApplied_of_noSource hs
  · rw [Device.evaluate_of_noSource hs, Device.evaluateNoSource, none]
  · rw [Device.evaluate_of_noSource hs, Device.evaluateNoSource, hn]
    exact Device.changeActive_none d n .fallback k

end Sys2Proof.Machine
end

section
/-! PROOFS. What the sequencer leaves of the View Planner and of the ports: a hand-off that begins, goes on or ends moves no
zoom, ends no ramp and writes no plan. -/

namespace Sys2Proof.Machine

open Sys2Proof

/-! ### The View Planner apart from the hand-off -/

/-- The Mode Controller, the nominal zoom, the ramp and its queue, the counts, the capture input and the plans are left, and
each bar is left or set to the backoff. -/
structure Device.LeavesPlans (d e : Device) : Prop where
  ctl     : e.ctl = d.ctl
  nominal : e.planner.nominal = d.planner.nominal
  queue   : e.planner.queue = d.planner.queue
  ramp    : e.planner.ramp = d.planner.ramp
  hold    : e.planner.hold = d.planner.hold
  guard   : e.planner.guard = d.planner.guard
  select  : e.planner.captureSelect = d.planner.captureSelect
  mark    : e.planner.markPending = d.planner.markPending
  plans   : e.planner.plans = d.planner.plans
  bars    : ∀ m, e.planner.bars.get m = d.planner.bars.get m ∨ e.planner.bars.get m = d.ctl.handoff.backoff

theorem Device.LeavesPlans.of_planner {d e : Device} (hc : e.ctl = d.ctl) (hp : e.planner = d.planner) :
    d.LeavesPlans e := by
  constructor <;> simp [hc, hp]

theorem Device.LeavesPlans.refl (d : Device) : d.LeavesPlans d := .of_planner rfl rfl

/-- What changes the hand-off alone. -/
theorem Device.LeavesPlans.of_handoff {d e : Device} (hc : e.ctl = d.ctl)
    (hp : e.planner = { d.planner with
      applied := e.planner.applied, state := e.planner.state, context := e.planner.context
      roles := e.planner.roles, lastChange := e.planner.lastChange }) : d.LeavesPlans e := by
  constructor
  case ctl => exact hc
  case bars => exact fun m => .inl (by rw [hp])
  all_goals rw [hp]

theorem Device.LeavesPlans.trans {d e f : Device} (h : d.LeavesPlans e) (g : e.LeavesPlans f) : d.LeavesPlans f where
  ctl := g.ctl.trans h.ctl
  nominal := g.nominal.trans h.nominal
  queue := g.queue.trans h.queue
  ramp := g.ramp.trans h.ramp
  hold := g.hold.trans h.hold
  guard := g.guard.trans h.guard
  select := g.select.trans h.select
  mark := g.mark.trans h.mark
  plans := g.plans.trans h.plans
  bars m := by
    obtain same | backoff := g.bars m
    · rw [same]
      exact h.bars m
    · exact .inr (by rw [backoff, h.ctl])

theorem Device.LeavesPlans.foldl {α : Type} (op : Device → α → Device) (h : ∀ (d : Device) (a : α), d.LeavesPlans (op d a))
    (l : List α) (d : Device) : d.LeavesPlans (l.foldl op d) := by
  induction l generalizing d with
  | nil => exact .refl d
  | cons a rest ih => exact (h d a).trans (ih _)

theorem Device.setRole_leavesPlans (d : Device) (m : PortId) (r : Role) : d.LeavesPlans (d.setRole m r) := by
  rw [Device.setRole_eq]
  unfold Device.freedFor
  split <;> exact .of_handoff rfl rfl

theorem Device.recomputeApplied_leavesPlans (d : Device) : d.LeavesPlans d.recomputeApplied := by
  unfold Device.recomputeApplied
  split <;> exact .of_handoff rfl rfl

theorem Device.changeActive_leavesPlans (d : Device) (old : Option PortId) (n : PortId) (r : ChangeReason) (k : Nat) :
    d.LeavesPlans (d.changeActive old n r k) := by
  have rests : d.LeavesPlans (match old with | some a => d.setRole a (d.restRole a) | none => d) := by
    cases old with
    | none => exact .refl d
    | some a => exact Device.setRole_leavesPlans d a _
  exact (rests.trans (Device.setRole_leavesPlans _ n _)).trans
    (.of_handoff rfl rfl)

theorem Device.setBar_leavesPlans (d : Device) (m : PortId) : d.LeavesPlans (d.setBar m d.ctl.handoff.backoff) := by
  refine ⟨rfl, rfl, rfl, rfl, rfl, rfl, rfl, rfl, rfl, fun n => ?_⟩
  by_cases same : n = m
  · exact .inr (same ▸ PerPort.get_set _ n _)
  · exact .inl (PerPort.get_set_of_ne _ _ same)

theorem Device.abandon_leavesPlans (d : Device) (r : AbandonReason) (k : Nat) : d.LeavesPlans (d.abandon r k) := by
  unfold Device.abandon
  split
  · exact .refl d
  · next c hc =>
    have ended : d.LeavesPlans (d.setRole c.dest (d.restRole c.dest)).endHandoff :=
      (Device.setRole_leavesPlans d c.dest _).trans
        (.of_handoff rfl rfl)
    dsimp only
    split
    · have barred := Device.setBar_leavesPlans (d.setRole c.dest (d.restRole c.dest)).endHandoff c.dest
      rw [ended.ctl] at barred
      exact (ended.trans barred).trans (.of_planner rfl rfl)
    · exact ended.trans (.of_planner rfl rfl)

theorem Device.abort_leavesPlans (d : Device) (m : PortId) (r : LossReport) : d.LeavesPlans (d.abort m r) := by
  have rests := Device.setRole_leavesPlans d m (d.restRole m)
  have barred := Device.setBar_leavesPlans (d.setRole m (d.restRole m)) m
  rw [rests.ctl] at barred
  unfold Device.abort
  refine Device.LeavesPlans.trans ?_ (Device.recomputeApplied_leavesPlans _)
  exact (rests.trans barred).trans (.of_handoff rfl rfl)

theorem Device.loseActive_leavesPlans (d : Device) (m : PortId) (r : LossReport) : d.LeavesPlans (d.loseActive m r) := by
  unfold Device.loseActive
  split
  · exact (Device.changeActive_leavesPlans d _ _ _ _).trans (Device.recomputeApplied_leavesPlans _)
  · split
    · exact Device.recomputeApplied_leavesPlans d
    · refine Device.LeavesPlans.trans ?_ (Device.recomputeApplied_leavesPlans _)
      exact (Device.setRole_leavesPlans d m .cold).trans (.of_handoff rfl rfl)

theorem Device.reportLoss_leavesPlans (d : Device) (m : PortId) (r : LossReport) : d.LeavesPlans (d.reportLoss m r) := by
  unfold Device.reportLoss
  split
  · exact .refl d
  · split
    · exact (Device.changeActive_leavesPlans d _ _ _ _).trans (Device.recomputeApplied_leavesPlans _)
    · exact Device.loseActive_leavesPlans d m r
    · exact Device.abort_leavesPlans d m r
    · split
      · exact .refl d
      · exact (Device.setRole_leavesPlans d m _).trans (Device.recomputeApplied_leavesPlans _)

/-! ### The evaluation -/

theorem Device.beginHandoff_leavesPlans (d : Device) (n : PortId) (dir : Direction) (k : Nat) (run : Option Nat) :
    d.LeavesPlans (d.beginHandoff n dir k run) := by
  rw [Device.beginHandoff_eq]
  exact .of_handoff rfl rfl

theorem Device.evaluateSteady_leavesPlans (d : Device) (k : Nat) (run : Option Nat) :
    d.LeavesPlans (d.evaluateSteady k run) := by
  unfold Device.evaluateSteady
  split
  · exact .refl d
  · split
    · split
      · exact Device.changeActive_leavesPlans d _ _ _ _
      · exact .refl d
    · split
      · split
        · split
          · exact Device.beginHandoff_leavesPlans d _ _ _ _
          · exact .refl d
        · exact .refl d
      · exact .refl d

theorem Device.probeCheck_leavesPlans (d : Device) (zoom : Nat) : d.LeavesPlans (d.probeCheck zoom) :=
  .of_planner (Device.probeCheck_keeps d zoom).ctl (Device.probeCheck_planner d zoom)

theorem Device.evaluatePrepare_leavesPlans (d : Device) (c : HandoffContext) (k : Nat) :
    d.LeavesPlans (d.evaluatePrepare c k) := by
  have raised : d.LeavesPlans (d.onPlanner fun p => { p with context := some { c with elapsed := c.elapsed + 1 } }) :=
    .of_handoff rfl rfl
  unfold Device.evaluatePrepare
  dsimp only
  split
  · exact raised.trans (Device.abandon_leavesPlans _ _ _)
  · split
    · exact raised.trans (Device.abandon_leavesPlans _ _ _)
    · exact raised

theorem Device.evaluateBlend_leavesPlans (d : Device) (c : HandoffContext) (k : Nat) (run : Option Nat) :
    d.LeavesPlans (d.evaluateBlend c k run) := by
  unfold Device.evaluateBlend
  split
  · exact .of_handoff rfl rfl
  · exact (Device.changeActive_leavesPlans d _ _ _ _).trans (Device.evaluateSteady_leavesPlans _ _ _)

theorem Device.deferProbe_leavesPlans (d : Device) (c : HandoffContext) (k : Nat) (run : Option Nat) (arrived : Bool) :
    d.LeavesPlans (d.deferProbe c k run arrived) := by
  unfold Device.deferProbe
  split
  · split
    · exact .of_handoff rfl rfl
    · refine Device.LeavesPlans.trans ?_ (Device.evaluateBlend_leavesPlans _ _ _ _)
      exact .of_handoff rfl rfl
  · exact .refl d

theorem Device.evaluate_leavesPlans (d : Device) (k : Nat) (run : Option Nat) (met : Bool) :
    d.LeavesPlans (d.evaluate k run met) := by
  unfold Device.evaluate
  split
  · exact Device.evaluateSteady_leavesPlans d k run
  · exact Device.evaluatePrepare_leavesPlans d _ k
  · unfold Device.evaluateProbe
    split
    · exact Device.abandon_leavesPlans d _ _
    · exact (Device.probeCheck_leavesPlans d _).trans (Device.deferProbe_leavesPlans _ _ _ _ _)
  · exact Device.evaluateBlend_leavesPlans d _ k run
  · unfold Device.evaluateNoSource
    split
    · exact Device.changeActive_leavesPlans d _ _ _ _
    · exact .refl d
  · exact .refl d

/-! ### The ports through an evaluation -/

theorem Device.abandon_onlyEndsFills (d : Device) (r : AbandonReason) (k : Nat) : d.OnlyEndsFills (d.abandon r k) := by
  unfold Device.abandon
  split
  · exact .refl d
  · dsimp only
    split <;> exact (Device.setRole_onlyEndsFills d _ _).trans (.of_ports rfl)

theorem Device.evaluateSteady_onlyEndsFills (d : Device) (k : Nat) (run : Option Nat) :
    d.OnlyEndsFills (d.evaluateSteady k run) := by
  unfold Device.evaluateSteady
  split
  · exact .refl d
  · split
    · split
      · exact Device.changeActive_onlyEndsFills d _ _ _ _
      · exact .refl d
    · split
      · split
        · split
          · rw [Device.beginHandoff_eq]; exact .of_ports rfl
          · exact .refl d
        · exact .refl d
      · exact .refl d

theorem Device.evaluateBlend_onlyEndsFills (d : Device) (c : HandoffContext) (k : Nat) (run : Option Nat) :
    d.OnlyEndsFills (d.evaluateBlend c k run) := by
  unfold Device.evaluateBlend
  split
  · exact .of_ports rfl
  · exact (Device.changeActive_onlyEndsFills d _ _ _ _).trans (Device.evaluateSteady_onlyEndsFills _ _ _)

theorem Device.deferProbe_onlyEndsFills (d : Device) (c : HandoffContext) (k : Nat) (run : Option Nat) (arrived : Bool) :
    d.OnlyEndsFills (d.deferProbe c k run arrived) := by
  unfold Device.deferProbe
  split
  · split
    · exact .of_ports rfl
    · exact Device.OnlyEndsFills.trans (.of_ports rfl) (Device.evaluateBlend_onlyEndsFills _ _ _ _)
  · exact .refl d

theorem Device.evaluate_onlyEndsFills (d : Device) (k : Nat) (run : Option Nat) (met : Bool) :
    d.OnlyEndsFills (d.evaluate k run met) := by
  unfold Device.evaluate
  split
  · exact Device.evaluateSteady_onlyEndsFills d k run
  · unfold Device.evaluatePrepare
    dsimp only
    split
    · exact Device.OnlyEndsFills.trans (.of_ports rfl) (Device.abandon_onlyEndsFills _ _ _)
    · split
      · exact Device.OnlyEndsFills.trans (.of_ports rfl) (Device.abandon_onlyEndsFills _ _ _)
      · exact .of_ports rfl
  · unfold Device.evaluateProbe
    split
    · exact Device.abandon_onlyEndsFills d _ _
    · have checked : d.OnlyEndsFills (d.probeCheck (d.appliedIn .probe)) := .of_ports (Device.probeCheck_ports d _)
      exact checked.trans (Device.deferProbe_onlyEndsFills _ _ _ _ _)
  · exact Device.evaluateBlend_onlyEndsFills d _ k run
  · unfold Device.evaluateNoSource
    split
    · exact Device.changeActive_onlyEndsFills d _ _ _ _
    · exact .refl d
  · exact .refl d

end Sys2Proof.Machine
end

section
/-! PROOFS. The period start (R56, R122, R165): its six stages, the FSYNC requests and the stall ages, for O45. -/

namespace Sys2Proof.Machine

open Sys2Proof

/-! ### Stages 1 and 2 -/

/-- R45 to R48: the ramp step moves the nominal zoom, the ramp and the queue alone. -/
theorem Planner.rampStep_eq (p : Planner) :
    p.rampStep.1 =
      { p with nominal := p.rampStep.1.nominal, ramp := p.rampStep.1.ramp, queue := p.rampStep.1.queue } := by
  unfold Planner.rampStep
  split
  · dsimp only
    split <;> rfl
  · split
    · rfl
    · split <;> rfl

/-- R57, R100, R103: the device after the ramp step and the counts of the planning for period k. -/
def Device.counted (d : Device) (k : Nat) : Device :=
  { d with
    planner := { d.planner.rampStep.1 with
      bars := d.planner.bars.map (· - 1), hold := d.planner.hold - 1, guard := d.planner.guard - 1 }
    events :=
      if d.planner.hold = 1 then d.events.raise d.now .holdExpired (EventDetail.ofPeriod (some k) none) else d.events }

theorem Device.countDown_rampStep (d : Device) (k : Nat) :
    Device.countDown { d with planner := d.planner.rampStep.1 } k = d.counted k := by
  obtain ⟨-, -, -, -, -, bars, hold, guard, -⟩ := d.planner.rampStep_frame
  simp only [Device.countDown, Device.counted, Device.onPlanner, bars, hold, guard]
  split <;> rfl

/-! ### Stage 4 -/

/-- R58: recomputing the applied zoom changes the applied zoom alone. -/
theorem Device.recomputeApplied_eq (d : Device) :
    d.recomputeApplied = d.onPlanner fun p => { p with applied := d.recomputeApplied.planner.applied } := by
  unfold Device.recomputeApplied
  split <;> rfl

theorem Device.recomputeApplied_with (d : Device) (p : Planner) (q : PerPort ModulePort) (u : EventUnit) :
    { d.recomputeApplied with planner := p, ports := q, events := u } =
      { d with planner := p, ports := q, events := u } := by
  unfold Device.recomputeApplied
  split <;> rfl

/-! ### The FSYNC requests (R114) -/

/-- R114: the FSYNC that a request for period k fixes at a port. -/
def Device.fsyncFor (d : Device) (k : Nat) (m : PortId) : Expectation :=
  { period := k, issue := d.periodTime k + 100 + d.fsyncPhase m, deadline := d.periodTime k + d.deadlineOffset m }

/-- R114: a port after the requests for period k at the ports of a list. -/
def Device.requested (d : Device) (k : Nat) (l : List PortId) (m : PortId) : ModulePort :=
  if m ∈ l ∧ (d.port m).hasLink = true then { d.port m with pendingFsync := some (d.fsyncFor k m) } else d.port m

/-- The request reads the Mode Controller and the port apart from its pending FSYNC. -/
theorem Device.fsyncFor_congr {d e : Device} (hc : e.ctl = d.ctl) {m : PortId}
    (hn : (e.port m).newestExposure = (d.port m).newestExposure) (hp : (e.port m).config = (d.port m).config) (k : Nat) :
    e.fsyncFor k m = d.fsyncFor k m := by
  simp only [Device.fsyncFor, Device.periodTime, Device.sessionStart, Device.fsyncPhase, Device.deadlineOffset, hc, hn,
    hp]

theorem Device.requestFsync_port (d : Device) (k : Nat) (m n : PortId) :
    (d.requestFsync k m).port n = d.requested k [m] n := by
  unfold Device.requestFsync Device.requested
  split
  · next link =>
    rw [Device.onPort_port_eq]
    split
    · next same =>
      subst same
      rw [if_pos ⟨List.mem_singleton.mpr rfl, link⟩]
      rfl
    · next other => rw [if_neg fun h => other (List.mem_singleton.mp h.1)]
  · next unlinked =>
    rw [if_neg]
    rintro ⟨mem, link⟩
    exact unlinked (List.mem_singleton.mp mem ▸ link)

theorem Device.requestFsync_rest (d : Device) (k : Nat) (m : PortId) :
    d.requestFsync k m = { d with ports := (d.requestFsync k m).ports } := by
  unfold Device.requestFsync
  split <;> rfl

theorem Device.requested_cons (d : Device) (k : Nat) (m n : PortId) (l : List PortId) :
    (d.requestFsync k m).requested k l n = d.requested k (m :: l) n := by
  have port := d.requestFsync_port k m n
  have ctl : (d.requestFsync k m).ctl = d.ctl := by rw [Device.requestFsync_rest]
  by_cases h : n = m ∧ (d.port n).hasLink = true
  · obtain ⟨rfl, link⟩ := h
    rw [Device.requested, if_pos ⟨List.mem_singleton.mpr rfl, link⟩] at port
    have fsync : (d.requestFsync k n).fsyncFor k n = d.fsyncFor k n :=
      Device.fsyncFor_congr ctl (by rw [port]) (by rw [port]) k
    rw [Device.requested, Device.requested, if_pos (c := n ∈ n :: l ∧ _) ⟨List.mem_cons_self, link⟩, port, fsync]
    exact ite_self _
  · rw [Device.requested, if_neg fun both => h ⟨List.mem_singleton.mp both.1, both.2⟩] at port
    have fsync : (d.requestFsync k m).fsyncFor k n = d.fsyncFor k n :=
      Device.fsyncFor_congr ctl (by rw [port]) (by rw [port]) k
    rw [Device.requested, Device.requested, port, fsync]
    refine if_congr ⟨fun both => ⟨List.mem_cons_of_mem _ both.1, both.2⟩, fun both => ⟨?_, both.2⟩⟩ rfl rfl
    exact (List.mem_cons.mp both.1).resolve_left fun same => h ⟨same, both.2⟩

theorem Device.foldl_requestFsync (k : Nat) (l : List PortId) (d : Device) :
    l.foldl (Device.requestFsync · k) d =
      { d with ports :=
        ⟨d.requested k l .p0, d.requested k l .p1, d.requested k l .p2, d.requested k l .p3⟩ } := by
  induction l generalizing d with
  | nil => simp only [List.foldl_nil, Device.requested, List.not_mem_nil, false_and, if_false]; rfl
  | cons m rest ih =>
    rw [List.foldl_cons, ih, Device.requested_cons, Device.requested_cons, Device.requested_cons,
      Device.requested_cons, Device.requestFsync_rest]

/-! ### The planning (R56) -/

/-- The device after stage 3 of the planning for period k. -/
def Device.evaluated (d : Device) (k : Nat) (met : Bool) : Device :=
  (d.counted k).evaluate k d.planner.rampStep.2.1 met

/-- R75: the view plan that the planning for period k writes. -/
def Device.planWritten (d : Device) (k : Nat) (met : Bool) : ViewPlan :=
  (d.evaluated k met).recomputeApplied.viewPlan k d.planner.rampStep.2.1

/-- The events after the planning for period k. -/
def Device.eventsPlanned (d : Device) (k : Nat) (met : Bool) : EventUnit :=
  let e := d.evaluated k met
  if d.planner.rampStep.2.2 = true then
    e.events.raise d.now .zoomDone
      { port := none, requestId := d.planner.rampStep.2.1, period := some k, reason := none,
        zooms := some ((d.planWritten k met).nominal, (d.planWritten k met).applied) }
  else e.events

theorem Device.requested_congr {d e : Device} (hc : e.ctl = d.ctl) (hp : e.ports = d.ports) (k : Nat) (l : List PortId)
    (m : PortId) : e.requested k l m = d.requested k l m := by
  have port : e.port m = d.port m := congrArg (fun p => PerPort.get p m) hp
  simp only [Device.requested, port, Device.fsyncFor_congr hc (by rw [port]) (by rw [port])]

theorem Device.evaluated_ctl (d : Device) (k : Nat) (met : Bool) : (d.evaluated k met).ctl = d.ctl :=
  (Device.evaluate_keeps (d.counted k) k _ met).ctl

theorem Device.counted_plans (d : Device) (k : Nat) : (d.counted k).planner.plans = d.planner.plans := by
  rw [Device.counted, Planner.rampStep_eq]

theorem Device.evaluated_plans (d : Device) (k : Nat) (met : Bool) :
    (d.evaluated k met).planner.plans = d.planner.plans :=
  (Device.evaluate_leavesPlans (d.counted k) k _ met).plans.trans (d.counted_plans k)

/-- R47: ZOOM_DONE raised where the ramp completed. -/
theorem Device.zoomDone_reported (d : Device) (k : Nat) (met : Bool) :
    (if d.planner.rampStep.2.2 then
      (d.evaluated k met).recomputeApplied.raiseZoomDone k d.planner.rampStep.2.1
    else (d.evaluated k met).recomputeApplied) =
      { (d.evaluated k met).recomputeApplied with events := d.eventsPlanned k met } := by
  have now : (d.evaluated k met).now = d.now := by rw [Device.now, Device.evaluated_ctl, Device.now]
  unfold Device.eventsPlanned
  rw [← now]
  split
  · have now_left : (d.evaluated k met).recomputeApplied.now = (d.evaluated k met).now := by
      rw [Device.recomputeApplied_eq]
      rfl
    have events_left : (d.evaluated k met).recomputeApplied.events = (d.evaluated k met).events := by
      rw [Device.recomputeApplied_eq]
      rfl
    rw [Device.raiseZoomDone, Device.raise, now_left, events_left]
    rfl
  · rw [Device.recomputeApplied_eq]
    rfl

/-- R56: the device after the six stages of the planning for period k. -/
theorem Device.plan_eq (d : Device) (k : Nat) (met : Bool) :
    let e := d.evaluated k met
    let v := d.planWritten k met
    d.plan k met =
      { e with
        planner := { e.recomputeApplied.planner with plans := d.planner.plans ++ [v], markPending := false }
        ports := ⟨e.requested k v.syncSet .p0, e.requested k v.syncSet .p1, e.requested k v.syncSet .p2,
          e.requested k v.syncSet .p3⟩
        events := d.eventsPlanned k met } := by
  intro e v
  let written : Device :=
    Device.writePlan { e.recomputeApplied with events := d.eventsPlanned k met } k d.planner.rampStep.2.1
  have stages : d.plan k met = v.syncSet.foldl (Device.requestFsync · k) written := by
    unfold Device.plan
    dsimp only
    rw [Device.countDown_rampStep, ← Device.evaluated, Device.zoomDone_reported]
    rfl
  have ctl : written.ctl = e.ctl := (Device.recomputeApplied_leavesPlans e).ctl
  have ports : written.ports = e.ports := e.recomputeApplied_ports
  have plans : e.recomputeApplied.planner.plans = d.planner.plans :=
    (Device.recomputeApplied_leavesPlans e).plans.trans (d.evaluated_plans k met)
  rw [stages, Device.foldl_requestFsync]
  simp only [Device.requested_congr ctl ports]
  refine (Device.recomputeApplied_with e
    { e.recomputeApplied.planner with plans := e.recomputeApplied.planner.plans ++ [v], markPending := false } _
    (d.eventsPlanned k met)).trans ?_
  rw [plans]

/-! ### The stall ages and the automatic reset (R122) -/

theorem Device.resetNext_iff (d : Device) (m : PortId) :
    d.resetNext m = true ↔ (d.port m).state = .stalled ∧ (d.port m).allowance = .available ∧
      (d.port m).stallAge + 1 = d.ctl.handoff.deadLimit := by
  simp only [Device.resetNext, Bool.and_eq_true, decide_eq_true_eq, and_assoc]

/-- R122, R108: a port after its automatic reset. -/
def Device.afterReset (d : Device) (now : Nat) (m : PortId) : Device :=
  Device.onPort { d with slots := d.slotsFreedFor m } m fun x =>
    { x with
      state := .resetting, since := now,
      newestExposure := ((d.port m).config.map PortConfig.exposure).getD (d.port m).newestExposure,
      lanes := none, pendingFsync := none, expectations := [], filling := none, badPeriods := 0, goodRun := 0,
      stallAge := 0, allowance := .spent }

theorem Device.autoReset_eq {d : Device} {m : PortId} (hs : (d.port m).state = .stalled) :
    d.autoReset m = (d.afterReset d.now m).reportLoss m (.down .autoReset) := by
  have link : (d.port m).hasLink = true := (ModulePort.hasLink_iff _).mpr (.inr hs)
  have exposure : (match (d.port m).config with | some c => c.exposure | none => (d.port m).newestExposure) =
      ((d.port m).config.map PortConfig.exposure).getD (d.port m).newestExposure := by
    cases (d.port m).config <;> rfl
  unfold Device.autoReset Device.bringUp Device.reportDownIf
  dsimp only
  rw [Device.takeDown_eq, Device.onPort_onPort, if_pos link]
  exact congrArg (fun x => Device.reportLoss (Device.onPort { d with slots := d.slotsFreedFor m } m fun q =>
    { q with
      state := .resetting, since := d.now, newestExposure := x, lanes := none, pendingFsync := none, expectations := [],
      filling := none, badPeriods := 0, goodRun := 0, stallAge := 0, allowance := .spent }) m _) exposure

/-- R122: the period start at one port, with the dead limit and the time of the period start. -/
def Device.advanceAt (limit now : Nat) (d : Device) (m : PortId) : Device :=
  if (d.port m).state = .stalled ∧ (d.port m).allowance = .available ∧ (d.port m).stallAge + 1 = limit then
    (d.afterReset now m).reportLoss m (.down .autoReset)
  else if (d.port m).state = .stalled then d.onPort m fun x => { x with stallAge := min limit (x.stallAge + 1) }
  else d

theorem Device.advanceStall_eq (d : Device) (m : PortId) :
    d.advanceStall m = Device.advanceAt d.ctl.handoff.deadLimit d.now d m := by
  unfold Device.advanceStall Device.advanceAt
  by_cases resets : d.resetNext m = true
  · have cond := (d.resetNext_iff m).mp resets
    rw [if_pos resets, if_pos cond, Device.autoReset_eq cond.1]
  · rw [if_neg resets, if_neg (mt (d.resetNext_iff m).mpr resets)]

theorem Device.afterReset_port (d : Device) (now : Nat) (m : PortId) :
    (d.afterReset now m).port m =
      { d.port m with
        state := .resetting, since := now,
        newestExposure := ((d.port m).config.map PortConfig.exposure).getD (d.port m).newestExposure,
        lanes := none, pendingFsync := none, expectations := [], filling := none, badPeriods := 0, goodRun := 0,
        stallAge := 0, allowance := .spent } := Device.onPort_port _ _ _

theorem Device.afterReset_port_of_ne (d : Device) (now : Nat) {m n : PortId} (h : n ≠ m) :
    (d.afterReset now m).port n = d.port n :=
  Device.onPort_port_of_ne _ _ h

theorem Device.advanceStall_leavesPlans (d : Device) (m : PortId) : d.LeavesPlans (d.advanceStall m) := by
  rw [Device.advanceStall_eq, Device.advanceAt]
  split
  · have cleared : d.LeavesPlans (d.afterReset d.now m) := .of_planner rfl rfl
    exact cleared.trans (Device.reportLoss_leavesPlans _ m _)
  · split
    · exact .of_planner rfl rfl
    · exact .refl d

theorem Device.advanceStall_port_of_ne (d : Device) {m n : PortId} (h : n ≠ m) :
    (d.advanceStall m).port n = d.port n ∨ (d.advanceStall m).port n = { d.port n with filling := none } := by
  rw [Device.advanceStall_eq, Device.advanceAt]
  split
  · have reported := Device.reportLoss_onlyEndsFills (d.afterReset d.now m) m (.down .autoReset) n
    rw [Device.afterReset_port_of_ne d d.now h] at reported
    exact reported
  · split
    · exact .inl (Device.onPort_port_of_ne _ _ h)
    · exact .inl rfl

/-- R122: what a period start makes of a port's link and its stall age. -/
structure ModulePort.Advanced (limit now : Nat) (q r : ModulePort) : Prop where
  reset : q.state = .stalled ∧ q.allowance = .available ∧ q.stallAge + 1 = limit →
    r.state = .resetting ∧ r.allowance = .spent ∧ r.stallAge = 0 ∧ r.since = now ∧ r.pendingFsync = none
  kept  : ¬ (q.state = .stalled ∧ q.allowance = .available ∧ q.stallAge + 1 = limit) →
    r.pendingFsync = q.pendingFsync ∧ r.state = q.state ∧
      r.stallAge = if q.state = .stalled then min limit (q.stallAge + 1) else q.stallAge

theorem ModulePort.Advanced.of_fill_left {limit now : Nat} {p q r : ModulePort}
    (h : q = p ∨ q = { p with filling := none }) (g : ModulePort.Advanced limit now q r) :
    ModulePort.Advanced limit now p r := by
  obtain rfl | rfl := h
  · exact g
  · exact ⟨g.reset, g.kept⟩

theorem ModulePort.Advanced.of_fill_right {limit now : Nat} {p q r : ModulePort}
    (h : r = q ∨ r = { q with filling := none }) (g : ModulePort.Advanced limit now p q) :
    ModulePort.Advanced limit now p r := by
  obtain rfl | rfl := h
  · exact g
  · exact ⟨g.reset, g.kept⟩

theorem Device.advanceStall_port (d : Device) (m : PortId) :
    ModulePort.Advanced d.ctl.handoff.deadLimit d.now (d.port m) ((d.advanceStall m).port m) := by
  rw [Device.advanceStall_eq, Device.advanceAt]
  split
  · next resets =>
    refine .of_fill_right (Device.reportLoss_onlyEndsFills (d.afterReset d.now m) m (.down .autoReset) m) ?_
    rw [Device.afterReset_port]
    exact ⟨fun _ => ⟨rfl, rfl, rfl, rfl, rfl⟩, fun h => absurd resets h⟩
  · next stays =>
    refine ⟨fun h => absurd h stays, fun _ => ?_⟩
    split
    · rw [Device.onPort_port]
      exact ⟨rfl, rfl, rfl⟩
    · exact ⟨rfl, rfl, rfl⟩

theorem Device.foldl_advanceStall_port_of_not_mem (l : List PortId) (d : Device) {m : PortId} (h : m ∉ l) :
    (l.foldl Device.advanceStall d).port m = d.port m ∨
      (l.foldl Device.advanceStall d).port m = { d.port m with filling := none } := by
  induction l generalizing d with
  | nil => exact .inl rfl
  | cons n rest ih =>
    obtain ⟨apart, absent⟩ := not_or.mp (mt List.mem_cons.mpr h)
    have first := Device.advanceStall_port_of_ne d apart
    have later := ih (d.advanceStall n) absent
    rw [List.foldl_cons]
    obtain first | first := first <;> rw [first] at later
    · exact later
    · exact .inr (later.elim id id)

/-- R122: a period start at every port of a list, seen at one of them. -/
theorem Device.foldl_advanceStall_port {l : List PortId} (distinct : l.Nodup) (d : Device) {m : PortId} (h : m ∈ l) :
    ModulePort.Advanced d.ctl.handoff.deadLimit d.now (d.port m) ((l.foldl Device.advanceStall d).port m) := by
  induction l generalizing d with
  | nil => cases h
  | cons n rest ih =>
    obtain ⟨fresh, distinct⟩ := List.nodup_cons.mp distinct
    rw [List.foldl_cons]
    obtain rfl | later := List.mem_cons.mp h
    · exact .of_fill_right (Device.foldl_advanceStall_port_of_not_mem rest _ fresh) (d.advanceStall_port m)
    · have apart : m ≠ n := fun same => fresh (same ▸ later)
      have ctl := (Device.advanceStall_leavesPlans d n).ctl
      have behind := ih distinct (d.advanceStall n) later
      rw [Device.now, ctl] at behind
      exact .of_fill_left (Device.advanceStall_port_of_ne d apart) behind

/-- R122: where no port resets, a period start changes stall ages alone. -/
theorem Device.foldl_advanceStall_of_no_reset {l : List PortId} (distinct : l.Nodup) (d : Device)
    (h : ∀ m ∈ l, ¬ ((d.port m).state = .stalled ∧ (d.port m).allowance = .available ∧
      (d.port m).stallAge + 1 = d.ctl.handoff.deadLimit)) :
    l.foldl Device.advanceStall d = { d with ports := (l.foldl Device.advanceStall d).ports } := by
  induction l generalizing d with
  | nil => rfl
  | cons n rest ih =>
    obtain ⟨fresh, distinct⟩ := List.nodup_cons.mp distinct
    have first : ∃ f, d.advanceStall n = d.onPort n f := by
      rw [Device.advanceStall_eq, Device.advanceAt, if_neg (h n List.mem_cons_self)]
      split
      · exact ⟨_, rfl⟩
      · exact ⟨id, (Device.onPort_eq_self d n rfl).symm⟩
    obtain ⟨f, first⟩ := first
    rw [List.foldl_cons, first]
    refine ih distinct (d.onPort n f) fun m hm => ?_
    have apart : m ≠ n := fun same => fresh (same ▸ hm)
    rw [Device.onPort_port_of_ne d f apart]
    exact h m (List.mem_cons_of_mem n hm)

theorem Device.foldl_advanceStall_eq (l : List PortId) (d : Device) :
    l.foldl Device.advanceStall d = l.foldl (Device.advanceAt d.ctl.handoff.deadLimit d.now) d := by
  induction l generalizing d with
  | nil => rfl
  | cons n rest ih =>
    rw [List.foldl_cons, List.foldl_cons, ih, ← Device.advanceStall_eq, Device.now,
      (Device.advanceStall_leavesPlans d n).ctl]
    rfl

/-! ### The period start -/

/-- R106: the frame deadline of a port, with its configuration or without. -/
theorem Device.deadlineOffset_eq_getD (d : Device) (m : PortId) :
    d.deadlineOffset m = min (d.ctl.output.latency * d.ctl.output.period - d.ctl.output.guard)
      (max ((d.ctl.output.period + 3) / 4) (((d.port m).config.map PortConfig.deadline).getD 0)) := by
  rw [← OutputConfig.firstDeadline_eq]
  unfold Device.deadlineOffset
  cases (d.port m).config <;> rfl

theorem Device.fsyncFor_eq (d : Device) (k : Nat) (m : PortId) :
    d.fsyncFor k m =
      let o := d.ctl.output
      let start := d.sessionStart + k * o.period
      { period := k
        issue := start + 100 + min (o.period / 2) ((o.exposureRef - (d.port m).newestExposure) / 2)
        deadline := start + min (o.latency * o.period - o.guard)
          (max ((o.period + 3) / 4) (((d.port m).config.map PortConfig.deadline).getD 0)) } := by
  rw [Device.fsyncFor, Device.fsyncPhase_eq, Device.deadlineOffset_eq_getD, Device.periodTime]

theorem Device.enterPeriod_sessionStart (d : Device) (k n : Nat) : (d.enterPeriod k n).sessionStart = d.sessionStart := by
  unfold Device.sessionStart Device.enterPeriod
  dsimp only [Device.onCtl_ctl]
  cases d.ctl.session <;> rfl

/-- R114: a port after the planning, apart from a frame being filled. -/
theorem Device.plan_port (d : Device) (k : Nat) (met : Bool) (m : PortId) :
    ∃ g, (d.plan k met).port m =
      { d.port m with
        filling := g
        pendingFsync :=
          if m ∈ (d.planWritten k met).syncSet ∧ (d.port m).hasLink = true then some (d.fsyncFor k m)
          else (d.port m).pendingFsync } := by
  have asked : (d.plan k met).port m = (d.evaluated k met).requested k (d.planWritten k met).syncSet m := by
    rw [Device.plan_eq]
    cases m <;> rfl
  have left : ∃ g, (d.evaluated k met).port m = { d.port m with filling := g } := by
    obtain same | ended := Device.evaluate_onlyEndsFills (d.counted k) k d.planner.rampStep.2.1 met m
    · exact ⟨_, same⟩
    · exact ⟨_, ended⟩
  obtain ⟨g, left⟩ := left
  have fsync : (d.evaluated k met).fsyncFor k m = d.fsyncFor k m :=
    Device.fsyncFor_congr (d.evaluated_ctl k met) (by rw [left]) (by rw [left]) k
  refine ⟨g, ?_⟩
  rw [asked, Device.requested, left, fsync]
  by_cases asks : m ∈ (d.planWritten k met).syncSet ∧ (d.port m).hasLink = true
  · rw [if_pos asks]
    exact if_pos asks
  · rw [if_neg asks]
    exact if_neg asks

end Sys2Proof.Machine
end

section
/-! PROOFS. The period start as a row of its own (O45) and the automatic reset (O47). -/

namespace Sys2Proof.Machine

open Sys2Proof

/-! ### The period start that is due -/

theorem State.periodStartWhen_of_due {s : State} {outcome : Bool} (due : s.dev.PeriodDue) (ho : outcome = true) :
    s.periodStartWhen outcome = s.withDevice (s.dev.startPeriod s.completionWaits) := by
  rw [State.periodStartWhen, if_pos (by rw [s.dev.periodDue_iff.mpr due, ho]; rfl)]
  rfl

theorem State.periodStartWhen_of_idle {s : State} {outcome : Bool} (idle : ¬ s.dev.PeriodDue ∨ outcome = false) :
    s.periodStartWhen outcome = s := by
  rw [State.periodStartWhen, if_neg]
  rw [Bool.and_eq_true, s.dev.periodDue_iff]
  rintro ⟨due, holds⟩
  obtain idle | fails := idle
  · exact idle due
  · rw [fails] at holds
    exact Bool.false_ne_true holds

theorem Device.nextPeriod_of_session {d : Device} {k : Nat} (hk : d.ctl.session.map Session.nextPlan = some k) :
    d.nextPeriod = k := by
  rw [Device.nextPeriod, hk, Option.getD_some]

/-- R165: the device that the planning for period k finds. -/
theorem Device.startPeriod_of_next {d : Device} {k : Nat} (hk : d.nextPeriod = k) (met : Bool) :
    d.startPeriod met = PortId.all.foldl Device.advanceStall ((d.enterPeriod k (k + 1)).plan k met) := by
  rw [Device.startPeriod, hk]

theorem PortId.all_nodup : PortId.all.Nodup := by decide

/-- R122: a period start leaves what reports of the ports leave. -/
theorem Device.startPeriod_leavesPlans {d : Device} {k : Nat} (hk : d.nextPeriod = k) (met : Bool) :
    ((d.enterPeriod k (k + 1)).plan k met).LeavesPlans (d.startPeriod met) := by
  rw [Device.startPeriod_of_next hk]
  exact Device.LeavesPlans.foldl _ Device.advanceStall_leavesPlans _ _

/-- What the planning for period k leaves of the View Planner's counts, zooms and bars. -/
structure Device.Planned (d e : Device) (k : Nat) (met : Bool) : Prop where
  nominal : e.planner.nominal = d.planner.rampStep.1.nominal
  queue   : e.planner.queue = d.planner.rampStep.1.queue
  ramp    : e.planner.ramp = d.planner.rampStep.1.ramp
  hold    : e.planner.hold = d.planner.hold - 1
  guard   : e.planner.guard = d.planner.guard - 1
  select  : e.planner.captureSelect = d.planner.captureSelect
  mark    : e.planner.markPending = false
  plans   : e.planner.plans = d.planner.plans ++ [d.planWritten k met]
  bars    : ∀ m, e.planner.bars.get m = d.planner.bars.get m - 1 ∨ e.planner.bars.get m = d.ctl.handoff.backoff

/-- R56: the applied zoom recomputed after stage 3, from what stages 1 and 2 left. -/
theorem Device.evaluated_leavesPlans (d : Device) (k : Nat) (met : Bool) :
    (d.counted k).LeavesPlans (d.evaluated k met).recomputeApplied :=
  (Device.evaluate_leavesPlans (d.counted k) k _ met).trans (Device.recomputeApplied_leavesPlans _)

theorem Device.plan_planned (d : Device) (k : Nat) (met : Bool) : d.Planned (d.plan k met) k met := by
  have left := d.evaluated_leavesPlans k met
  have select : (d.counted k).planner.captureSelect = d.planner.captureSelect := by
    rw [Device.counted, Planner.rampStep_eq]
  rw [Device.plan_eq]
  refine ⟨left.nominal, left.queue, left.ramp, left.hold, left.guard, left.select.trans select, rfl, rfl, fun m => ?_⟩
  have counted : (d.counted k).planner.bars.get m = d.planner.bars.get m - 1 := PerPort.get_map _ _ m
  rw [← counted]
  exact left.bars m

theorem Device.Planned.trans {d e f : Device} {k : Nat} {met : Bool} (h : d.Planned e k met) (hc : e.ctl = d.ctl)
    (g : e.LeavesPlans f) : d.Planned f k met where
  nominal := g.nominal.trans h.nominal
  queue := g.queue.trans h.queue
  ramp := g.ramp.trans h.ramp
  hold := g.hold.trans h.hold
  guard := g.guard.trans h.guard
  select := g.select.trans h.select
  mark := g.mark.trans h.mark
  plans := g.plans.trans h.plans
  bars m := by
    obtain same | backoff := g.bars m
    · rw [same]
      exact h.bars m
    · exact .inr (by rw [backoff, hc])

theorem Device.startPeriod_planned {d : Device} {k : Nat} (hk : d.nextPeriod = k) (met : Bool) :
    (d.enterPeriod k (k + 1)).Planned (d.startPeriod met) k met :=
  (Device.plan_planned _ k met).trans (Device.plan_keeps _ k met).ctl (Device.startPeriod_leavesPlans hk met)

/-- R114, R122: a port after the period start. -/
theorem Device.startPeriod_port {d : Device} {k : Nat} (hk : d.nextPeriod = k) (met : Bool) (m : PortId) :
    let v := (d.enterPeriod k (k + 1)).planWritten k met
    ModulePort.Advanced d.ctl.handoff.deadLimit d.now
      { d.port m with
        pendingFsync :=
          if m ∈ v.syncSet ∧ (d.port m).hasLink = true then some ((d.enterPeriod k (k + 1)).fsyncFor k m)
          else (d.port m).pendingFsync }
      ((d.startPeriod met).port m) := by
  intro v
  obtain ⟨g, port⟩ := Device.plan_port (d.enterPeriod k (k + 1)) k met m
  have advanced := Device.foldl_advanceStall_port PortId.all_nodup ((d.enterPeriod k (k + 1)).plan k met)
    (PortId.mem_all m)
  rw [← Device.startPeriod_of_next hk, port, Device.now, (Device.plan_keeps _ k met).ctl] at advanced
  exact ⟨advanced.reset, advanced.kept⟩

/-- R75: the view plan of the planning for period k, from the state after stage 3. -/
theorem Device.planWritten_eq (d : Device) (k : Nat) (met : Bool) :
    let e := d.evaluated k met
    let v := d.planWritten k met
    v.period = k ∧ v.nominal = d.planner.rampStep.1.nominal ∧ v.requestId = d.planner.rampStep.2.1 ∧
      (v.zoomHeld = true ↔ v.applied ≠ v.nominal) ∧ v.captureMark = d.planner.markPending ∧
      v.applied = e.recomputeApplied.planner.applied ∧ v.active = e.activePort ∧ v.syncSet = e.syncSet k ∧
      (∀ st, e.planner.state = some st → v.state = st) ∧
      (∀ c, e.planner.state = some .blend → e.planner.context = some c → v.blend = some (e.blendStep c)) ∧
      (e.planner.state ≠ some .blend → v.blend = none) := by
  intro e v
  have left := d.evaluated_leavesPlans k met
  have mark : (d.counted k).planner.markPending = d.planner.markPending := by
    rw [Device.counted, Planner.rampStep_eq]
  refine ⟨rfl, left.nominal, rfl, decide_eq_true_iff, left.mark.trans mark, rfl, ?_⟩
  have settled : v = Device.viewPlan (e.onPlanner fun p => { p with applied := e.recomputeApplied.planner.applied }) k
      d.planner.rampStep.2.1 := by
    rw [← Device.recomputeApplied_eq]
    rfl
  clear_value v
  subst settled
  refine ⟨rfl, rfl, fun st hs => ?_, fun c hs hc => ?_, fun hs => ?_⟩
  · simp only [Device.viewPlan, Device.onPlanner_planner, hs, Option.getD_some]
  · simp only [Device.viewPlan, Device.onPlanner_planner, hs, hc]
    rfl
  · simp only [Device.viewPlan, Device.onPlanner_planner]
    split
    · next c h _ => exact absurd h hs
    · rfl

/-- R122: where no port resets, the planning's device is left but for the stall ages. -/
theorem Device.startPeriod_of_no_reset {d : Device} {k : Nat} (hk : d.nextPeriod = k) (met : Bool)
    (h : ∀ m, ¬ ((d.port m).state = .stalled ∧ (d.port m).allowance = .available ∧
      (d.port m).stallAge + 1 = d.ctl.handoff.deadLimit)) :
    d.startPeriod met =
      { (d.enterPeriod k (k + 1)).plan k met with ports := (d.startPeriod met).ports } := by
  rw [Device.startPeriod_of_next hk]
  refine Device.foldl_advanceStall_of_no_reset PortId.all_nodup _ fun m _ => ?_
  obtain ⟨g, port⟩ := Device.plan_port (d.enterPeriod k (k + 1)) k met m
  rw [port, (Device.plan_keeps _ k met).ctl]
  exact h m

/-- R122: the period start with the dead limit and the time as they stand. -/
theorem Device.startPeriod_eq {d : Device} {k : Nat} (hk : d.nextPeriod = k) (met : Bool) :
    d.startPeriod met =
      PortId.all.foldl (Device.advanceAt d.ctl.handoff.deadLimit d.now) ((d.enterPeriod k (k + 1)).plan k met) := by
  rw [Device.startPeriod_of_next hk, Device.foldl_advanceStall_eq, Device.now, (Device.plan_keeps _ k met).ctl]
  rfl

/-- R114: what a request asks of a port with a link, written out. -/
theorem Device.requested_eq (d : Device) (k : Nat) (l : List PortId) (m : PortId) :
    d.requested k l m =
      if m ∈ l ∧ ((d.port m).state = .linked ∨ (d.port m).state = .stalled) then
        { d.port m with pendingFsync := some (d.fsyncFor k m) }
      else d.port m :=
  if_congr (and_congr_right fun _ => ModulePort.hasLink_iff _) rfl rfl

/-- Settles O45: the planning and the period start at the ports. -/
theorem periodStartWritesPlan : Obligations.PeriodStartWritesPlan := by
  intro s
  refine ⟨fun due k hk => ?_, fun idle => ?_⟩
  swap
  · exact congrArg Host.Outcome.next (State.periodStartWhen_of_idle (.inl idle))
  have next := Device.nextPeriod_of_session hk
  let met := s.completionWaits
  let entered := s.dev.enterPeriod k (k + 1)
  have planned := Device.startPeriod_planned next met
  have keeps : entered.Keeps (s.dev.startPeriod met) := by
    have kept := Device.startPeriod_keeps s.dev met
    rw [next] at kept
    exact kept
  obtain ⟨period, nominal, request, held, mark, applied, active, sync, state, blend, unblended⟩ :=
    entered.planWritten_eq k met
  have advanced (m : PortId) := Device.startPeriod_port next met m
  have starts : exec .periodStart s = .next (s.withDevice (s.dev.startPeriod met)) :=
    congrArg Host.Outcome.next (State.periodStartWhen_of_due due rfl)
  have whole := Device.startPeriod_eq next met
  have still := Device.startPeriod_of_no_reset next met
  generalize s.dev.startPeriod met = x at planned keeps advanced starts whole still
  refine ⟨s.withDevice x, entered.planWritten k met, starts, rfl, rfl, rfl, keeps.ctl, planned.plans, period,
    planned.nominal, nominal.trans planned.nominal.symm, planned.ramp, planned.queue, request, held, mark, planned.mark,
    planned.hold, planned.guard, planned.bars, planned.select, keeps.cal, keeps.motion, keeps.buffers, keeps.composing,
    keeps.link, keeps.composePoint, keeps.hostA, keeps.hostM, fun m => ?_, ?_⟩
  · have advanced := advanced m
    have start : entered.sessionStart = s.dev.sessionStart := s.dev.enterPeriod_sessionStart k (k + 1)
    refine ⟨fun c hc mem link stays => ?_, fun unasked stays => ?_, fun stalled stays => ?_, fun running => ?_,
      fun resets => advanced.reset resets⟩
    · refine (advanced.kept stays).1.trans ((if_pos ⟨mem, (ModulePort.hasLink_iff _).mpr link⟩).trans ?_)
      have config : (entered.port m).config = some c := hc
      rw [Device.fsyncFor_eq, start, config]
      rfl
    · refine (advanced.kept stays).1.trans (if_neg ?_)
      rintro ⟨mem, link⟩
      obtain absent | ⟨unlinked, unstalled⟩ := unasked
      · exact absent mem
      · exact ((ModulePort.hasLink_iff _).mp link).elim unlinked unstalled
    · obtain ⟨-, state, age⟩ := advanced.kept stays
      exact ⟨state.trans stalled, age.trans (if_pos stalled)⟩
    · obtain ⟨-, state, age⟩ := advanced.kept fun resets => running resets.1
      exact ⟨state, age.trans (if_neg running)⟩
  · intro counted
    have hc : counted = entered.counted k := by
      have ctl : (s.withDevice x).dev.ctl = entered.ctl := keeps.ctl
      simp only [counted, ctl]
      rfl
    rw [show counted.evaluate k s.dev.planner.rampStep.2.1 (decide (Instr.probeComplete ∈ s.pending)) =
      entered.evaluated k met from congrArg (Device.evaluate · k _ _) hc]
    clear_value counted
    intro e
    refine ⟨applied, active, sync, state, blend, unblended, ?_⟩
    intro raised o start requested planned advance
    have asked (m : PortId) :
        (entered.evaluated k met).requested k (entered.planWritten k met).syncSet m = requested m := by
      rw [Device.requested_eq, Device.fsyncFor_eq, Device.sessionStart, entered.evaluated_ctl, ← Device.sessionStart,
        Device.enterPeriod_sessionStart]
      rfl
    have written : entered.plan k met = planned := by
      rw [Device.plan_eq]
      simp only [asked]
      rfl
    refine ⟨?_, fun stays => ?_⟩
    · rw [written] at whole
      exact whole
    · have same := still stays
      rw [written] at same
      have settled : e.recomputeApplied.planner =
          { e.planner with applied := e.recomputeApplied.planner.applied } :=
        congrArg Device.planner e.recomputeApplied_eq
      have planner : x.planner =
          { e.recomputeApplied.planner with plans := s.dev.planner.plans ++ [entered.planWritten k met], markPending := false } :=
        congrArg Device.planner same
      rw [settled] at planner
      exact ⟨(congrArg Planner.roles planner :), (congrArg Planner.state planner :),
        (congrArg Planner.context planner :), (congrArg Planner.lastChange planner :),
        (congrArg Planner.bars planner :), (congrArg Planner.applied planner :).trans applied.symm,
        (congrArg Device.slots same :), (congrArg Device.probe same :), (congrArg Device.probeResult same :),
        (congrArg Device.events same :)⟩

/-! ### The automatic reset (R122) -/

theorem Device.autoReset_due_iff (d : Device) (m : PortId) :
    d.autoResetDue m = true ↔ d.PeriodDue ∧ (d.port m).state = .stalled ∧ (d.port m).allowance = .available ∧
      (d.port m).stallAge + 1 = d.ctl.handoff.deadLimit := by
  rw [Device.autoResetDue, Bool.and_eq_true, d.periodDue_iff, d.resetNext_iff]

/-- R122: the row of the automatic reset that is due. -/
theorem exec_autoReset_of_due {m : PortId} {s : State} (due : s.dev.autoResetDue m = true)
    (hs : (s.dev.port m).state = .stalled) :
    exec (.autoReset m) s = .next (s.withDevice
      (((s.dev.enterPeriod s.dev.nextPeriod s.dev.nextPeriod).afterReset s.dev.now m).reportLoss m
        (.down .autoReset))) := by
  have stalled : ((s.dev.enterPeriod s.dev.nextPeriod s.dev.nextPeriod).port m).state = .stalled := hs
  have reset := Device.autoReset_eq stalled
  simp only [exec, execAutoReset, due, if_true]
  exact congrArg (fun d => Host.Outcome.next (s.withDevice d)) reset

/-- Every slot with an owner is left as it was. -/
def Device.OnlyFrees (d e : Device) : Prop := ∀ y ∈ e.slots, y.owner.isSome = true → y ∈ d.slots

theorem Device.OnlyFrees.of_slots {d e : Device} (h : e.slots = d.slots) : d.OnlyFrees e := fun _ hy _ => h ▸ hy

theorem Device.OnlyFrees.trans {d e f : Device} (h : d.OnlyFrees e) (g : e.OnlyFrees f) : d.OnlyFrees f :=
  fun y hy ho => h y (g y hy ho) ho

theorem Device.setRole_onlyFrees (d : Device) (m : PortId) (r : Role) : d.OnlyFrees (d.setRole m r) := by
  rw [Device.setRole_eq]
  unfold Device.freedFor
  split
  · intro y hy ho
    obtain ⟨x, hx, rfl⟩ := List.mem_map.mp hy
    split at ho
    · exact Bool.noConfusion ho
    · next kept =>
      rw [if_neg kept]
      exact hx
  · exact .of_slots rfl

theorem Device.recomputeApplied_onlyFrees (d : Device) : d.OnlyFrees d.recomputeApplied :=
  .of_slots (by rw [Device.recomputeApplied_eq]; rfl)

theorem Device.changeActive_onlyFrees (d : Device) (a n : PortId) (r : ChangeReason) (k : Nat) :
    d.OnlyFrees (d.changeActive (some a) n r k) :=
  ((Device.setRole_onlyFrees d a _).trans (Device.setRole_onlyFrees _ n _)).trans (.of_slots rfl)

theorem Device.reportLoss_onlyFrees (d : Device) (m : PortId) (r : LossReport) : d.OnlyFrees (d.reportLoss m r) := by
  unfold Device.reportLoss
  split
  · exact .of_slots rfl
  · split
    · exact (Device.changeActive_onlyFrees d _ _ _ _).trans (Device.recomputeApplied_onlyFrees _)
    · unfold Device.loseActive
      split
      · exact (Device.changeActive_onlyFrees d _ _ _ _).trans (Device.recomputeApplied_onlyFrees _)
      · split
        · exact Device.recomputeApplied_onlyFrees d
        · refine Device.OnlyFrees.trans ?_ (Device.recomputeApplied_onlyFrees _)
          exact (Device.setRole_onlyFrees d m .cold).trans (.of_slots rfl)
    · unfold Device.abort
      refine Device.OnlyFrees.trans ?_ (Device.recomputeApplied_onlyFrees _)
      exact (Device.setRole_onlyFrees d m _).trans (.of_slots rfl)
    · split
      · exact .of_slots rfl
      · exact (Device.setRole_onlyFrees d m _).trans (Device.recomputeApplied_onlyFrees _)

theorem Device.recomputeApplied_role (d : Device) (m : PortId) : d.recomputeApplied.role m = d.role m := by
  rw [Device.recomputeApplied_eq]
  rfl

theorem Device.setRole_role (d : Device) (m n : PortId) (r : Role) :
    (d.setRole m r).role n = if n = m then r else d.role n := by
  rw [Device.setRole_eq]
  exact PerPort.get_set_eq _ m n r

theorem Device.changeActive_role (d : Device) (a n m : PortId) (r : ChangeReason) (k : Nat) :
    (d.changeActive (some a) n r k).role m =
      if m = n then .active else if m = a then d.restRole a else d.role m := by
  rw [Device.changeActive_eq, Device.raise_role]
  refine (PerPort.get_set_eq _ n m _).trans ?_
  rw [PerPort.get_set_eq]
  rfl

theorem Device.restRole_of_unlinked {d : Device} {m : PortId} (h : (d.port m).hasLink = false) : d.restRole m = .cold := by
  rw [Device.restRole_eq, h]
  rfl

theorem Device.fallbackChoice_linked {d : Device} {n : PortId} (h : d.fallbackChoice = some n) :
    (d.port n).state = .linked :=
  (Device.isFallbackCandidate_iff.mp (Device.preferred_portsWhere_mem h)).1

/-- R54: a DOWN report leaves the port COLD. -/
theorem Device.reportDown_role {d : Device} (hm : d.mode = .streaming) {m : PortId}
    (unlinked : (d.port m).hasLink = false) (apart : ∀ c, d.planner.context = some c → d.role m = .active → c.dest ≠ m)
    (cause : DownCause) : (d.reportLoss m (.down cause)).role m = .cold := by
  rw [Device.reportLoss_of_streaming hm]
  split
  · next c ha hc =>
    rw [Device.recomputeApplied_role, Device.changeActive_role, if_neg (apart c hc ha).symm, if_pos rfl,
      Device.restRole_of_unlinked unlinked]
  · unfold Device.loseActive
    split
    · next n hn =>
      have differ : m ≠ n := by
        rintro rfl
        rw [ModulePort.hasLink, Device.fallbackChoice_linked hn] at unlinked
        exact Bool.noConfusion unlinked
      rw [Device.recomputeApplied_role, Device.changeActive_role, if_neg differ, if_pos rfl,
        Device.restRole_of_unlinked unlinked]
    · dsimp only
      rw [Device.recomputeApplied_role]
      exact (Device.setRole_role d m m .cold).trans (if_pos rfl)
  · unfold Device.abort
    dsimp only
    rw [Device.recomputeApplied_role, Device.restRole_of_unlinked unlinked]
    exact (Device.setRole_role d m m .cold).trans (if_pos rfl)
  · dsimp only
    rw [Device.recomputeApplied_role]
    exact (Device.setRole_role d m m .cold).trans (if_pos rfl)

/-- Settles O47: the automatic reset and its DOWN report. -/
theorem automaticResetAtTheDeadLimit : Obligations.AutomaticResetAtTheDeadLimit := by
  intro m s due
  refine ⟨fun idle => ?_, fun ready c hc => ?_, fun ready roles c hc => ?_⟩
  · have not_due : ¬ s.dev.autoResetDue m = true := mt (s.dev.autoReset_due_iff m).mp idle
    simp only [exec, execAutoReset, if_neg not_due]
  · rw [exec_autoReset_of_due ((s.dev.autoReset_due_iff m).mpr ready) ready.2.1, Device.afterReset]
    simp only [Device.enterPeriod_port, hc]
    rfl
  · let entered := s.dev.enterPeriod s.dev.nextPeriod s.dev.nextPeriod
    let reset := entered.afterReset s.dev.now m
    obtain ⟨streaming, x, hx, -⟩ := ready.1
    have down := Device.reportLoss_onlyEndsFills reset m (.down .autoReset) m
    have left := Device.reportLoss_leavesPlans reset m (.down .autoReset)
    have keeps := (Device.reportLoss_portKeeps reset m (.down .autoReset)).keeps
    have frees := Device.reportLoss_onlyFrees reset m (.down .autoReset)
    have port : reset.port m =
        { s.dev.port m with
          state := .resetting, since := s.dev.now, newestExposure := c.exposure, lanes := none, pendingFsync := none,
          expectations := [], filling := none, badPeriods := 0, goodRun := 0, stallAge := 0, allowance := .spent } := by
      refine (Device.afterReset_port entered s.dev.now m).trans ?_
      simp only [entered, Device.enterPeriod_port, hc, Option.map_some, Option.getD_some]
    have cold : (reset.reportLoss m (.down .autoReset)).role m = .cold := by
      refine Device.reportDown_role (d := reset) streaming (by rw [port]; rfl) (fun c hc active same => ?_) .autoReset
      have dest := (roles.dest m).mpr (by rw [show s.dev.planner.context = some c from hc, Option.map_some, same])
      exact Role.noConfusion (dest.symm.trans active)
    have starts := exec_autoReset_of_due ((s.dev.autoReset_due_iff m).mpr ready) ready.2.1
    have session : entered.ctl.session = some { x with current := s.dev.nextPeriod, nextPlan := s.dev.nextPeriod } := by
      simp only [entered, Device.enterPeriod, Device.onCtl_ctl, hx, Option.map_some]
    generalize reset.reportLoss m (.down .autoReset) = y at down left keeps frees cold starts
    refine ⟨s.withDevice y, starts, rfl, rfl, rfl, ?_, ?_, left.plans, left.nominal, ?_, cold, fun z hz owner => ?_,
      keeps.cal, keeps.motion, keeps.buffers, keeps.link⟩
    · show y.ctl.session.map Session.current = _
      rw [show y.ctl = entered.ctl from keeps.ctl, session]
      rfl
    · show (y.ctl.session.map Session.nextPlan).getD 0 = _
      rw [show y.ctl = entered.ctl from keeps.ctl, session]
      rfl
    · rw [port] at down
      exact down.elim id id
    · obtain ⟨w, -, hw⟩ := List.mem_map.mp (frees z hz (by rw [owner]; rfl))
      split at hw
      · rw [← hw] at owner
        exact absurd owner.symm (Option.some_ne_none m)
      · next held =>
        subst hw
        refine ⟨fun filling => held ⟨owner, ?_⟩, fun ready => held ⟨owner, ?_⟩⟩
        · rw [Slot.unheld, filling]; rfl
        · rw [Slot.unheld, ready]; rfl

end Sys2Proof.Machine
end

section
/-! PROOFS. The rows that name one outcome of a planning, and what each outcome leaves (O46). -/

namespace Sys2Proof.Machine

open Sys2Proof

/-! ### The records of one kind (R180) -/

/-- The records of one kind at a command port. -/
def Device.recordsOf (d : Device) (q : CmdPort) (k : EventKind) : List EventRecord :=
  (d.eventSet q).records.filter fun r => decide (r.kind = k)

theorem Device.recordsOf_congr {d e : Device} (h : e.events = d.events) (q : CmdPort) (k : EventKind) :
    e.recordsOf q k = d.recordsOf q k := by
  cases q <;> simp only [Device.recordsOf, Device.eventSet, h]

theorem EventSet.raise_filter_same (l : List EventRecord) (k : EventKind) (x : EventDetail) :
    (l.map fun r => if r.kind = k then r.raise x else r).filter (fun r => decide (r.kind = k)) =
      (l.filter fun r => decide (r.kind = k)).map fun r => r.raise x := by
  induction l with
  | nil => rfl
  | cons r rest ih =>
    rw [List.map_cons, List.filter_cons, List.filter_cons]
    by_cases h : r.kind = k
    · simp only [h, if_true, EventRecord.raise_kind, decide_true, List.map_cons, ih]
    · simp only [h, if_false, decide_false, ih, Bool.false_eq_true]

theorem EventSet.raise_filter_other (l : List EventRecord) {k j : EventKind} (hne : j ≠ k) (x : EventDetail) :
    (l.map fun r => if r.kind = j then r.raise x else r).filter (fun r => decide (r.kind = k)) =
      l.filter fun r => decide (r.kind = k) := by
  induction l with
  | nil => rfl
  | cons r rest ih =>
    rw [List.map_cons, List.filter_cons, List.filter_cons, ih]
    by_cases h : r.kind = j
    · simp only [h, if_true, EventRecord.raise_kind, hne, decide_false, Bool.false_eq_true, if_false]
    · rw [if_neg h]

/-- The event is recorded once, at both ports. -/
def Device.RaisedOnce (d e : Device) (k : EventKind) (x : EventDetail) : Prop :=
  ∀ q, e.recordsOf q k = (d.recordsOf q k).map fun r => r.raise x

/-- No event of the kind is raised. -/
def Device.LeavesKind (d e : Device) (k : EventKind) : Prop := ∀ q, e.recordsOf q k = d.recordsOf q k

theorem Device.LeavesKind.of_events {d e : Device} (h : e.events = d.events) (k : EventKind) : d.LeavesKind e k :=
  fun q => Device.recordsOf_congr h q k

theorem Device.LeavesKind.trans {d e f : Device} {k : EventKind} (h : d.LeavesKind e k) (g : e.LeavesKind f k) :
    d.LeavesKind f k := fun q => (g q).trans (h q)

theorem Device.RaisedOnce.after {d e f : Device} {k : EventKind} {x : EventDetail} (h : d.RaisedOnce e k x)
    (g : e.LeavesKind f k) : d.RaisedOnce f k x := fun q => (g q).trans (h q)

theorem Device.RaisedOnce.before {d e f : Device} {k : EventKind} {x : EventDetail} (g : e.RaisedOnce f k x)
    (h : d.LeavesKind e k) : d.RaisedOnce f k x := fun q => by rw [g q, h q]

theorem Device.raise_raisedOnce (d : Device) {k : EventKind} (hk : k.isFault = false) (x : EventDetail) :
    d.RaisedOnce (d.raise k x) k x := by
  intro q
  rw [Device.recordsOf, Device.raise_eventSet_of_normal d hk]
  exact EventSet.raise_filter_same _ k x

theorem Device.raise_leavesKind (d : Device) {j k : EventKind} (hj : j.isFault = false) (hne : j ≠ k)
    (x : EventDetail) : d.LeavesKind (d.raise j x) k := by
  intro q
  rw [Device.recordsOf, Device.raise_eventSet_of_normal d hj]
  exact EventSet.raise_filter_other _ hne x

/-- R180: what the record of an event that is raised once shows. -/
theorem Device.RaisedOnce.shows {d e : Device} {k : EventKind} {x : EventDetail} (h : d.RaisedOnce e k x)
    (coherent : d.events.coherent) (q : CmdPort) :
    ∃ old ∈ (d.eventSet q).records, ∃ r ∈ (e.eventSet q).records,
      old.kind = k ∧ r.kind = k ∧ r.pending = true ∧
        (old.pending = true → r.count = min 255 (old.count + 1) ∧ r.detail = old.detail) ∧
        (old.pending = false → r.count = 1 ∧ r.detail = some x) := by
  have kinds : (d.eventSet q).records.map EventRecord.kind = EventKind.all := by
    cases q
    · exact coherent.1.1
    · exact coherent.2.1.1
  have listed : k ∈ (d.eventSet q).records.map EventRecord.kind := by
    rw [kinds]
    cases k <;> decide
  obtain ⟨old, hold, kind⟩ := List.mem_map.mp listed
  have raised : old.raise x ∈ e.recordsOf q k := by
    rw [h q]
    exact List.mem_map_of_mem (List.mem_filter.mpr ⟨hold, decide_eq_true kind⟩)
  refine ⟨old, hold, old.raise x, (List.mem_filter.mp raised).1, kind, (old.raise_kind x).trans kind, ?_⟩
  unfold EventRecord.raise
  cases hp : old.pending
  · exact ⟨rfl, fun pending => Bool.noConfusion pending, fun _ => ⟨rfl, rfl⟩⟩
  · exact ⟨rfl, fun _ => ⟨rfl, rfl⟩, fun idle => Bool.noConfusion idle⟩

/-! ### The kinds that an evaluation raises -/

/-- The kinds of the hand-off that an evaluation may raise. -/
def EventKind.ofEvaluation (k : EventKind) : Prop := k = .handoffStarted ∨ k = .handoffAbandoned ∨ k = .handoffDone

theorem Device.setRole_events (d : Device) (m : PortId) (r : Role) : (d.setRole m r).events = d.events := by
  rw [Device.setRole_eq]
  unfold Device.freedFor
  split <;> rfl

theorem Device.changeActive_leavesKind (d : Device) (old : Option PortId) (n : PortId) (r : ChangeReason) (i : Nat)
    {k : EventKind} (hk : k ≠ .handoffDone) : d.LeavesKind (d.changeActive old n r i) k := by
  have rests : d.LeavesKind (match old with | some a => d.setRole a (d.restRole a) | none => d) k := by
    cases old with
    | none => exact .of_events rfl k
    | some a => exact .of_events (Device.setRole_events d a _) k
  refine rests.trans (Device.LeavesKind.trans (.of_events (Device.setRole_events _ n .active) k) ?_)
  exact Device.LeavesKind.trans (.of_events rfl k) (Device.raise_leavesKind _ rfl hk.symm _)

theorem Device.abandon_leavesKind (d : Device) (r : AbandonReason) (i : Nat) {k : EventKind}
    (hk : k ≠ .handoffAbandoned) : d.LeavesKind (d.abandon r i) k := by
  rcases hc : d.planner.context with _ | c
  · refine .of_events ?_ k
    rw [Device.abandon, hc]
  · rw [Device.abandon_eq hc]
    refine Device.LeavesKind.trans (.of_events ?_ k) (Device.raise_leavesKind _ rfl hk.symm _)
    unfold Device.freedFor
    split <;> rfl

theorem Device.beginHandoff_leavesKind (d : Device) (n : PortId) (dir : Direction) (i : Nat) (run : Option Nat)
    {k : EventKind} (hk : k ≠ .handoffStarted) : d.LeavesKind (d.beginHandoff n dir i run) k := by
  rw [Device.beginHandoff_eq]
  exact Device.LeavesKind.trans (.of_events rfl k) (Device.raise_leavesKind _ rfl hk.symm _)

theorem Device.evaluateSteady_leavesKind (d : Device) (i : Nat) (run : Option Nat) {k : EventKind}
    (hd : k ≠ .handoffDone) (hs : k ≠ .handoffStarted) : d.LeavesKind (d.evaluateSteady i run) k := by
  unfold Device.evaluateSteady
  split
  · exact .of_events rfl k
  · split
    · split
      · exact Device.changeActive_leavesKind d _ _ _ _ hd
      · exact .of_events rfl k
    · split
      · split
        · split
          · exact Device.beginHandoff_leavesKind d _ _ _ _ hs
          · exact .of_events rfl k
        · exact .of_events rfl k
      · exact .of_events rfl k

theorem Device.evaluateBlend_leavesKind (d : Device) (c : HandoffContext) (i : Nat) (run : Option Nat) {k : EventKind}
    (hd : k ≠ .handoffDone) (hs : k ≠ .handoffStarted) : d.LeavesKind (d.evaluateBlend c i run) k := by
  unfold Device.evaluateBlend
  split
  · exact .of_events rfl k
  · exact (Device.changeActive_leavesKind d _ _ _ _ hd).trans (Device.evaluateSteady_leavesKind _ _ _ hd hs)

theorem Device.probeCheck_events (d : Device) (zoom : Nat) : (d.probeCheck zoom).events = d.events := by
  unfold Device.probeCheck
  split <;> rfl

theorem Device.deferProbe_leavesKind (d : Device) (c : HandoffContext) (i : Nat) (run : Option Nat) (arrived : Bool)
    {k : EventKind} (hd : k ≠ .handoffDone) (hs : k ≠ .handoffStarted) :
    d.LeavesKind (d.deferProbe c i run arrived) k := by
  unfold Device.deferProbe
  split
  · split
    · exact .of_events rfl k
    · exact Device.LeavesKind.trans (.of_events rfl k) (Device.evaluateBlend_leavesKind _ _ _ _ hd hs)
  · exact .of_events rfl k

theorem Device.evaluate_leavesKind (d : Device) (i : Nat) (run : Option Nat) (met : Bool) {k : EventKind}
    (hk : ¬ k.ofEvaluation) : d.LeavesKind (d.evaluate i run met) k := by
  obtain ⟨hs, hk⟩ := not_or.mp hk
  obtain ⟨ha, hd⟩ := not_or.mp hk
  unfold Device.evaluate
  split
  · exact Device.evaluateSteady_leavesKind d i run hd hs
  · unfold Device.evaluatePrepare
    dsimp only
    split
    · exact Device.LeavesKind.trans (.of_events rfl k) (Device.abandon_leavesKind _ _ _ ha)
    · split
      · exact Device.LeavesKind.trans (.of_events rfl k) (Device.abandon_leavesKind _ _ _ ha)
      · exact .of_events rfl k
  · unfold Device.evaluateProbe
    split
    · exact Device.abandon_leavesKind d _ _ ha
    · have checked : d.LeavesKind (d.probeCheck (d.appliedIn .probe)) k :=
        .of_events (Device.probeCheck_events d _) k
      exact checked.trans (Device.deferProbe_leavesKind _ _ _ _ _ hd hs)
  · exact Device.evaluateBlend_leavesKind d _ i run hd hs
  · unfold Device.evaluateNoSource
    split
    · exact Device.changeActive_leavesKind d _ _ _ _ hd
    · exact .of_events rfl k
  · exact .of_events rfl k

/-! ### The bars outside PREPARE (R57, R63) -/

theorem Device.changeActive_bars (d : Device) (old : Option PortId) (n : PortId) (r : ChangeReason) (k : Nat) :
    (d.changeActive old n r k).planner.bars = d.planner.bars := by
  cases old with
  | none => rw [Device.changeActive_none]; rfl
  | some a => rw [Device.changeActive_eq]; rfl

theorem Device.evaluateSteady_bars (d : Device) (k : Nat) (run : Option Nat) :
    (d.evaluateSteady k run).planner.bars = d.planner.bars := by
  unfold Device.evaluateSteady
  split
  · rfl
  · split
    · split
      · exact Device.changeActive_bars d _ _ _ _
      · rfl
    · split
      · split
        · split
          · rw [Device.beginHandoff_eq]; rfl
          · rfl
        · rfl
      · rfl

theorem Device.evaluateBlend_bars (d : Device) (c : HandoffContext) (k : Nat) (run : Option Nat) :
    (d.evaluateBlend c k run).planner.bars = d.planner.bars := by
  unfold Device.evaluateBlend
  split
  · rfl
  · exact (Device.evaluateSteady_bars _ k run).trans (Device.changeActive_bars d _ _ _ _)

/-- R63: only a timeout in PREPARE sets a bar in a planning. -/
theorem Device.evaluate_bars {d : Device} (hs : d.planner.state ≠ some .prepare) (k : Nat) (run : Option Nat)
    (met : Bool) : (d.evaluate k run met).planner.bars = d.planner.bars := by
  unfold Device.evaluate
  split
  · exact Device.evaluateSteady_bars d k run
  · next h _ => exact absurd h hs
  · next c _ hc =>
    unfold Device.evaluateProbe
    split
    · rw [Device.abandon_eq hc]; rfl
    · have checked : (d.probeCheck (d.appliedIn .probe)).planner = d.planner := Device.probeCheck_planner d _
      rw [← checked]
      unfold Device.deferProbe
      split
      · split
        · rfl
        · exact Device.evaluateBlend_bars _ _ _ _
      · rfl
  · exact Device.evaluateBlend_bars d _ k run
  · unfold Device.evaluateNoSource
    split
    · exact Device.changeActive_bars d _ _ _ _
    · rfl
  · rfl

/-! ### The rows (part one of O46) -/

/-- A row that is the due period start with an outcome. -/
theorem outcomeRow {s : State} {i : Instr} {b : Bool} {outcome : Prop} (hi : exec i s = .next (s.periodStartWhen b))
    (hb : b = true ↔ outcome) :
    (s.dev.PeriodDue → outcome → ∃ t, exec i s = .next t ∧ exec .periodStart s = .next t) ∧
      (¬ s.dev.PeriodDue ∨ ¬ outcome → exec i s = .next s) := by
  refine ⟨fun due ho => ⟨_, hi, ?_⟩, fun idle => ?_⟩
  · exact congrArg Host.Outcome.next (Eq.trans (State.periodStartWhen_of_due due rfl)
      (State.periodStartWhen_of_due due (hb.mpr ho)).symm)
  · rw [hi, State.periodStartWhen_of_idle]
    exact idle.imp_right fun fails => Bool.eq_false_iff.mpr (mt hb.mp fails)

/-- R47: the ramp step completes a ramp at its last step, or takes an entry of length 0. -/
theorem Planner.rampStep_completes_iff (p : Planner) :
    p.rampStep.2.2 = true ↔ (∃ r, p.ramp = some r ∧ r.length ≤ r.step + 1) ∨
      p.ramp = none ∧ ∃ e rest, p.queue = e :: rest ∧ e.length = 0 := by
  rcases hr : p.ramp with _ | r
  · rcases hq : p.queue with _ | ⟨e, rest⟩
    · simp [Planner.rampStep, hr, hq]
    · by_cases h : e.length = 0 <;> simp [Planner.rampStep, hr, hq, h]
  · by_cases h : r.step + 1 < r.length
    · simp [Planner.rampStep, hr, h]
    · simp [Planner.rampStep, hr, h, Nat.not_lt.mp h]

/-- R47: a ramp that completes is gone. -/
theorem Planner.rampStep_completed {p : Planner} (h : p.rampStep.2.2 = true) : p.rampStep.1.ramp = none := by
  rcases (p.rampStep_completes_iff).mp h with ⟨r, hr, last⟩ | ⟨hr, e, rest, hq, zero⟩
  · simp [Planner.rampStep, hr, Nat.not_lt.mpr last]
  · simp [Planner.rampStep, hr, hq, zero]

theorem Device.beforeEvaluation_eq (d : Device) : d.beforeEvaluation = d.counted d.nextPeriod :=
  d.countDown_rampStep d.nextPeriod

theorem Device.counted_state (d : Device) (k : Nat) : (d.counted k).planner.state = d.planner.state :=
  d.planner.rampStep_frame.2.2.1

theorem Device.counted_context (d : Device) (k : Nat) : (d.counted k).planner.context = d.planner.context :=
  d.planner.rampStep_frame.2.2.2.1

theorem Device.prepareTimesOut_iff (d : Device) :
    d.prepareTimesOut = true ↔ ∃ c, d.planner.state = some .prepare ∧ d.planner.context = some c ∧
      d.beforeEvaluation.reversed c = false ∧ d.ctl.handoff.prepareLimit ≤ c.elapsed + 1 := by
  unfold Device.prepareTimesOut
  rw [d.beforeEvaluation_eq]
  dsimp only
  rw [d.counted_state, d.counted_context]
  split
  · next c hs hc =>
    rw [Bool.and_eq_true, Bool.not_eq_true', decide_eq_true_eq]
    refine ⟨fun h => ⟨c, hs, hc, h⟩, fun ⟨c', _, hc', h⟩ => ?_⟩
    cases hc.symm.trans hc'
    exact h
  · next absent => exact ⟨fun h => Bool.noConfusion h, fun ⟨c, hs, hc, _⟩ => absurd hc (absent c hs)⟩

theorem Device.probeSkips_iff (d : Device) (met : Bool) :
    d.probeSkips met = true ↔ ∃ c, d.planner.state = some .probe ∧ d.planner.context = some c ∧
      d.beforeEvaluation.reversed c = false ∧ d.beforeEvaluation.planner.hold = 0 ∧
      (d.probe = none ∧ d.beforeEvaluation.probePair = none ∨ d.probe ≠ none ∧ met = true) ∧
      d.ctl.handoff.deferralLimit ≤ c.deferral + 1 := by
  unfold Device.probeSkips
  rw [d.beforeEvaluation_eq]
  dsimp only
  rw [d.counted_state, d.counted_context]
  split
  · next c hs hc =>
    simp only [Bool.and_eq_true, Bool.or_eq_true, Bool.not_eq_true', decide_eq_true_eq, Option.isNone_iff_eq_none,
      Device.completionArrived_iff]
    refine ⟨fun ⟨⟨⟨straight, idle⟩, hold⟩, limit⟩ => ⟨c, hs, hc, straight, hold, idle.symm, limit⟩, ?_⟩
    rintro ⟨c', _, hc', straight, hold, idle, limit⟩
    cases hc.symm.trans hc'
    exact ⟨⟨⟨straight, idle.symm⟩, hold⟩, limit⟩
  · next absent => exact ⟨fun h => Bool.noConfusion h, fun ⟨c, hs, hc, _⟩ => absurd hc (absent c hs)⟩

theorem Device.blendCommits_iff (d : Device) :
    d.blendCommits = true ↔ ∃ c, d.planner.state = some .blend ∧ d.planner.context = some c ∧
      d.ctl.handoff.blendLength ≤ c.step := by
  unfold Device.blendCommits
  split
  · next c hs hc =>
    rw [decide_eq_true_eq]
    refine ⟨fun h => ⟨c, hs, hc, h⟩, fun ⟨c', _, hc', h⟩ => ?_⟩
    cases hc.symm.trans hc'
    exact h
  · next absent => exact ⟨fun h => Bool.noConfusion h, fun ⟨c, hs, hc, _⟩ => absurd hc (absent c hs)⟩

/-! ### The device where no port resets -/

/-- What is left of the evaluation of the planning for period k at its end. -/
structure Device.ShowsEvaluation (d x : Device) (k : Nat) (met : Bool) : Prop where
  state      : x.planner.state = (d.evaluated k met).planner.state
  context    : x.planner.context = (d.evaluated k met).planner.context
  lastChange : x.planner.lastChange = (d.evaluated k met).planner.lastChange
  bars       : x.planner.bars = (d.evaluated k met).planner.bars
  applied    : x.planner.applied = (d.planWritten k met).applied
  role       : ∀ m, x.role m = (d.evaluated k met).role m
  probe      : x.probe = (d.evaluated k met).probe
  events     : x.events = d.eventsPlanned k met

/-- R56: the period start where no port resets. -/
theorem Device.startPeriod_showsEvaluation {d : Device} {k : Nat} (hk : d.nextPeriod = k) (met : Bool)
    (stays : ∀ m, ¬ ((d.port m).state = .stalled ∧ (d.port m).allowance = .available ∧
      (d.port m).stallAge + 1 = d.ctl.handoff.deadLimit)) :
    (d.enterPeriod k (k + 1)).ShowsEvaluation (d.startPeriod met) k met := by
  have still := Device.startPeriod_of_no_reset hk met stays
  rw [Device.plan_eq, Device.recomputeApplied_eq] at still
  generalize d.startPeriod met = x at still
  rw [still]
  exact ⟨rfl, rfl, rfl, rfl, rfl, fun _ => rfl, rfl, rfl⟩

/-! ### What an evaluation with one outcome leaves -/

theorem Device.activePort_of_coherent {d : Device} (roles : d.RolesCoherent) (running : d.mode = .streaming)
    (sourced : d.planner.state ≠ some .noSource) : ∃ a, d.activePort = some a ∧ d.role a = .active := by
  have inside : d.mode.inSession = true := by rw [running]; rfl
  obtain ⟨a, ha⟩ := (roles.source inside).mpr sourced
  exact ⟨a, Device.activePort_of_unique ha fun n hn => roles.oneActive n a hn ha, ha⟩

theorem Device.restRole_of_link {d : Device} {m : PortId} (h : (d.port m).state = .linked ∨ (d.port m).state = .stalled) :
    d.restRole m = d.standbyRole m := if_pos h

/-- R63, R69: what a timeout in PREPARE leaves. -/
theorem Device.evaluate_timesOut {d : Device} {c : HandoffContext} (hs : d.planner.state = some .prepare)
    (hc : d.planner.context = some c) (straight : d.reversed c = false)
    (late : d.ctl.handoff.prepareLimit ≤ c.elapsed + 1) (link : (d.port c.dest).state = .linked) (k : Nat)
    (run : Option Nat) (met : Bool) :
    let e := d.evaluate k run met
    e.planner.state = some .steady ∧ e.planner.context = none ∧ e.planner.bars.get c.dest = d.ctl.handoff.backoff ∧
      e.role c.dest = d.standbyRole c.dest ∧
      d.RaisedOnce e .handoffAbandoned (EventDetail.ofPort c.dest (some k) (some 1)) := by
  intro e
  have straight : ¬ d.reversed c = true := by rw [straight]; exact Bool.false_ne_true
  let counting := d.onPlanner fun p => { p with context := some { c with elapsed := c.elapsed + 1 } }
  have he : e = counting.abandon .timeout k := by
    simp only [e]
    rw [Device.evaluate_of_prepare hs hc, Device.evaluatePrepare, if_neg straight, if_pos late]
  rw [he, Device.abandon_eq rfl]
  refine ⟨rfl, rfl, PerPort.get_set _ _ _, ?_, ?_⟩
  · exact (PerPort.get_set _ _ _).trans (Device.restRole_of_link (.inl link))
  · refine (Device.raise_raisedOnce _ rfl _).before (.of_events ?_ _)
    unfold Device.freedFor
    split <;> rfl

/-- R61: what a fallback in STEADY leaves. -/
theorem Device.evaluate_fallsBack {d : Device} (roles : d.RolesCoherent) {m n : PortId}
    (hs : d.planner.state = some .steady) (active : d.role m = .active) (stalled : (d.port m).state = .stalled)
    (choice : d.fallbackChoice = some n) (k : Nat) (run : Option Nat) (met : Bool) :
    let e := d.evaluate k run met
    e.role n = .active ∧ e.role m = d.standbyRole m ∧ e.planner.state = some .steady ∧
      e.planner.lastChange = some { old := some m, new := n, reason := .fallback, period := k } ∧
      d.RaisedOnce e .handoffDone (EventDetail.ofPort n (some k) (some 2)) := by
  intro e
  have found := Device.activePort_of_unique active fun n hn => roles.oneActive n m hn active
  have he : e = d.changeActive (some m) n .fallback k := by
    simp only [e]
    rw [Device.evaluate_of_steady hs, Device.evaluateSteady_of_stalled found stalled, choice]
  have apart : m ≠ n := by
    rintro rfl
    exact PortState.noConfusion (stalled.symm.trans (Device.fallbackChoice_linked choice))
  rw [he]
  refine ⟨?_, ?_, ?_⟩
  · rw [Device.changeActive_role, if_pos rfl]
  · rw [Device.changeActive_role, if_neg apart, if_pos rfl, Device.restRole_of_link (.inr stalled)]
  · rw [Device.changeActive_eq]
    refine ⟨rfl, rfl, (Device.raise_raisedOnce _ rfl _).before (.of_events ?_ _)⟩
    unfold Device.freedFor
    split <;> rfl

/-- R65: what a skip in PROBE leaves. -/
theorem Device.evaluate_skips {d : Device} {c : HandoffContext} (hs : d.planner.state = some .probe)
    (hc : d.planner.context = some c) (straight : d.reversed c = false) (hold : d.planner.hold = 0) {met : Bool}
    (idle : d.probe = none ∧ d.probePair = none ∨ d.probe ≠ none ∧ met = true)
    (late : d.ctl.handoff.deferralLimit ≤ c.deferral + 1) (blends : 1 ≤ d.ctl.handoff.blendLength) (k : Nat)
    (run : Option Nat) :
    d.evaluate k run met = d.onPlanner fun p =>
      { p with
        state := some .blend
        context := some { c with deferral := c.deferral + 1, residual := some Residual.skip, step := 1 } } := by
  have straight : ¬ d.reversed c = true := by rw [straight]; exact Bool.false_ne_true
  have settled : d.probeCheck (d.appliedIn .probe) = d := by
    obtain ⟨-, none⟩ | ⟨flying, -⟩ := idle
    · exact Device.probeCheck_of_none none _
    · exact Device.probeCheck_eq_self (.inr flying)
  rw [Device.evaluate_of_probe hs hc, Device.evaluateProbe_forward straight, settled,
    Device.deferProbe_of_idle (idle.imp And.left (d.completionArrived_iff met).mpr) hold, if_neg (Nat.not_lt.mpr late)]
  dsimp only
  rw [Device.evaluateBlend_before]
  · rfl
  · exact blends

/-- R59: the destination zooms in further or out further than the ACTIVE port. -/
theorem Device.destination_isUp_or_isDown {d : Device} {a n : PortId} {dir : Direction}
    (h : d.destination a = some (n, dir)) : d.isUp a n ∨ d.isDown a n := by
  unfold Device.destination at h
  dsimp only at h
  split at h
  · next m found =>
    cases h
    exact .inl ((d.isUp_iff a n).mp (Device.longest_portsWhere found).1)
  · split at h
    · obtain ⟨m, found, same⟩ := Option.map_eq_some_iff.mp h
      cases same
      exact .inr ((d.isDown_iff a n).mp (Device.longest_portsWhere found).1)
    · cases h

theorem Device.destination_ne {d : Device} {a n : PortId} {dir : Direction} (h : d.destination a = some (n, dir)) :
    n ≠ a := by
  rintro rfl
  obtain up | down := Device.destination_isUp_or_isDown h
  · exact Nat.lt_irrefl _ up.2.1
  · exact Nat.lt_irrefl _ down.2.1

theorem Device.isCandidate_linked {d : Device} {n : PortId} (h : d.isCandidate n = true) :
    (d.port n).state = .linked :=
  (Device.isFallbackCandidate_iff.mp (Bool.and_eq_true_iff.mp h).1).1

theorem Device.destination_linked {d : Device} {a n : PortId} {dir : Direction}
    (h : d.destination a = some (n, dir)) : (d.port n).state = .linked :=
  Device.isCandidate_linked ((Device.destination_isUp_or_isDown h).elim And.left And.left)

/-- R60: an evaluation in STEADY with the ACTIVE port LINKED leaves that port ACTIVE. -/
theorem Device.evaluateSteady_keepsActive {d : Device} {a : PortId} (ha : d.activePort = some a)
    (active : d.role a = .active) (link : (d.port a).state = .linked) (k : Nat) (run : Option Nat) :
    (d.evaluateSteady k run).role a = .active ∧
      (d.evaluateSteady k run).planner.lastChange = d.planner.lastChange ∧
      d.LeavesKind (d.evaluateSteady k run) .handoffDone := by
  rw [Device.evaluateSteady_of_linked ha link]
  split
  · next n dir dest =>
    split
    · refine ⟨?_, ?_, Device.beginHandoff_leavesKind d _ _ _ _ EventKind.noConfusion⟩
      · rw [Device.beginHandoff_eq]
        exact (PerPort.get_set_eq _ n a _).trans ((if_neg (Device.destination_ne dest).symm).trans active)
      · rw [Device.beginHandoff_eq]
        rfl
    · exact ⟨active, rfl, .of_events rfl _⟩
  · exact ⟨active, rfl, .of_events rfl _⟩

/-- R67: what a commit leaves. -/
theorem Device.evaluate_commits {d : Device} (roles : d.RolesCoherent) (running : d.mode = .streaming)
    {c : HandoffContext} (hs : d.planner.state = some .blend) (hc : d.planner.context = some c)
    (last : d.ctl.handoff.blendLength ≤ c.step) (k : Nat) (run : Option Nat) (met : Bool) :
    let e := d.evaluate k run met
    e.role c.dest = .active ∧
      e.planner.lastChange = some { old := d.activePort, new := c.dest, reason := .blend, period := k } ∧
      d.RaisedOnce e .handoffDone (EventDetail.ofPort c.dest (some k) (some 0)) := by
  intro e
  obtain ⟨a, ha, active⟩ := Device.activePort_of_coherent roles running (by rw [hs]; exact fun h => by cases h)
  have he : e = (d.changeActive (some a) c.dest .blend k).evaluateSteady k run := by
    simp only [e]
    rw [Device.evaluate_of_blend hs hc, Device.evaluateBlend_last last, ha]
  have dest : d.role c.dest = .dest := (roles.dest c.dest).mpr (by rw [hc]; rfl)
  have now_active : (d.changeActive (some a) c.dest .blend k).role c.dest = .active := by
    rw [Device.changeActive_role, if_pos rfl]
  have found : (d.changeActive (some a) c.dest .blend k).activePort = some c.dest := by
    refine Device.activePort_of_unique now_active fun n hn => ?_
    by_contra other
    rw [Device.changeActive_role, if_neg other] at hn
    split at hn
    · exact d.restRole_ne_active a hn
    · next apart => exact apart (roles.oneActive n a hn active)
  have link : ((d.changeActive (some a) c.dest .blend k).port c.dest).state = .linked := by
    have linked := roles.destLinked running c.dest dest
    obtain same | ended := Device.changeActive_onlyEndsFills d (some a) c.dest .blend k c.dest
    · rw [same, linked]
    · rw [ended, linked]
  obtain ⟨role, change, leaves⟩ := Device.evaluateSteady_keepsActive found now_active link k run
  rw [he, ha]
  refine ⟨role, change.trans ?_, Device.RaisedOnce.after ?_ leaves⟩
  · rw [Device.changeActive_eq]
    rfl
  · rw [Device.changeActive_eq]
    refine (Device.raise_raisedOnce _ rfl _).before (.of_events ?_ _)
    unfold Device.freedFor
    split <;> rfl

/-! ### From the period start to the evaluation and back -/

theorem Device.RolesCoherent.congr {d e : Device} (h : d.RolesCoherent) (roles : e.planner.roles = d.planner.roles)
    (context : e.planner.context = d.planner.context) (state : e.planner.state = d.planner.state)
    (mode : e.mode = d.mode) (ports : e.ports = d.ports) : e.RolesCoherent := by
  have role (m : PortId) : e.role m = d.role m := congrArg (PerPort.get · m) roles
  have port (m : PortId) : e.port m = d.port m := congrArg (PerPort.get · m) ports
  refine ⟨?_, ?_, ?_, ?_, ?_⟩
  · simp only [role]
    exact h.oneActive
  · simp only [role, context]
    exact h.dest
  · simp only [role, mode, state]
    exact h.source
  · simp only [role, mode, port]
    exact h.linkless
  · simp only [role, mode, port]
    exact h.destLinked

/-- The device that the evaluation of the planning for period k finds. -/
def Device.atEvaluation (d : Device) (k : Nat) : Device := (d.enterPeriod k (k + 1)).counted k

theorem Device.atEvaluation_sameRoles (d : Device) (k : Nat) : (d.atEvaluation k).planner.roles = d.planner.roles :=
  (congrArg Planner.roles d.planner.rampStep_eq :)

theorem Device.activePort_congr {d e : Device} (h : e.planner.roles = d.planner.roles) : e.activePort = d.activePort := by
  have role (m : PortId) : e.role m = d.role m := congrArg (PerPort.get · m) h
  simp only [Device.activePort, role]

theorem Device.atEvaluation_role (d : Device) (k : Nat) (m : PortId) : (d.atEvaluation k).role m = d.role m :=
  congrArg (PerPort.get · m) (d.atEvaluation_sameRoles k)

theorem Device.atEvaluation_state (d : Device) (k : Nat) : (d.atEvaluation k).planner.state = d.planner.state :=
  (d.enterPeriod k (k + 1)).counted_state k

theorem Device.atEvaluation_context (d : Device) (k : Nat) : (d.atEvaluation k).planner.context = d.planner.context :=
  (d.enterPeriod k (k + 1)).counted_context k

/-- Stage 3 decides as the row of its outcome foresees: the period that begins changes no decision. -/
theorem Device.atEvaluation_decides (d : Device) (c : HandoffContext) :
    (d.atEvaluation d.nextPeriod).reversed c = d.beforeEvaluation.reversed c ∧
      (d.atEvaluation d.nextPeriod).fallbackChoice = d.beforeEvaluation.fallbackChoice ∧
      (d.atEvaluation d.nextPeriod).probePair = d.beforeEvaluation.probePair ∧
      (d.atEvaluation d.nextPeriod).planner.hold = d.beforeEvaluation.planner.hold := by
  rw [d.beforeEvaluation_eq]
  exact ⟨rfl, rfl, rfl, rfl⟩

theorem Device.atEvaluation_roles {d : Device} (h : d.RolesCoherent) (k : Nat) : (d.atEvaluation k).RolesCoherent :=
  h.congr (d.atEvaluation_sameRoles k) (d.counted_context k) (d.counted_state k) rfl rfl

theorem Device.counted_leavesKind (d : Device) (n : Nat) {k : EventKind} (hk : k ≠ .holdExpired) :
    d.LeavesKind (d.counted n) k := by
  by_cases h : d.planner.hold = 1
  · have raised := Device.raise_leavesKind d (j := .holdExpired) rfl hk.symm (EventDetail.ofPeriod (some n) none)
    refine raised.trans (.of_events ?_ k)
    rw [Device.counted, if_pos h]
    rfl
  · refine .of_events ?_ k
    rw [Device.counted, if_neg h]

theorem Device.eventsPlanned_leavesKind (d : Device) (n : Nat) (met : Bool) {x : Device}
    (hx : x.events = d.eventsPlanned n met) {k : EventKind} (hk : k ≠ .zoomDone) :
    (d.evaluated n met).LeavesKind x k := by
  by_cases h : d.planner.rampStep.2.2 = true
  · have raised := Device.raise_leavesKind (d.evaluated n met) (j := .zoomDone) rfl hk.symm
      { port := none, requestId := d.planner.rampStep.2.1, period := some n, reason := none,
        zooms := some ((d.planWritten n met).nominal, (d.planWritten n met).applied) }
    refine raised.trans (.of_events ?_ k)
    rw [hx, Device.eventsPlanned, if_pos h, Device.raise, Device.now, Device.now, d.evaluated_ctl]
  · refine .of_events ?_ k
    rw [hx, Device.eventsPlanned, if_neg h]

/-- R47: ZOOM_DONE raised by the planning. -/
theorem Device.eventsPlanned_zoomDone {d : Device} (h : d.planner.rampStep.2.2 = true) (n : Nat) (met : Bool)
    {x : Device} (hx : x.events = d.eventsPlanned n met) :
    d.RaisedOnce x .zoomDone
      { port := none, requestId := d.planner.rampStep.2.1, period := some n, reason := none,
        zooms := some ((d.planWritten n met).nominal, (d.planWritten n met).applied) } := by
  have before : d.LeavesKind (d.evaluated n met) .zoomDone := by
    refine (d.counted_leavesKind n EventKind.noConfusion).trans (Device.evaluate_leavesKind _ _ _ _ ?_)
    rintro (h | h | h) <;> cases h
  refine ((Device.raise_raisedOnce (d.evaluated n met) (k := .zoomDone) rfl _).before before).after (.of_events ?_ _)
  rw [hx, Device.eventsPlanned, if_pos h, Device.raise, Device.now, Device.now, d.evaluated_ctl]

/-- R100: HOLD_EXPIRED raised by the planning. -/
theorem Device.eventsPlanned_holdExpired {d : Device} (h : d.planner.hold = 1) (n : Nat) (met : Bool)
    {x : Device} (hx : x.events = d.eventsPlanned n met) :
    d.RaisedOnce x .holdExpired (EventDetail.ofPeriod (some n) none) := by
  have counted : d.RaisedOnce (d.counted n) .holdExpired (EventDetail.ofPeriod (some n) none) := by
    refine (Device.raise_raisedOnce d rfl _).after (.of_events ?_ _)
    rw [Device.counted, if_pos h]
    rfl
  have evaluated : (d.counted n).LeavesKind (d.evaluated n met) .holdExpired := by
    refine Device.evaluate_leavesKind _ _ _ _ ?_
    rintro (h | h | h) <;> cases h
  exact (counted.after evaluated).after (Device.eventsPlanned_leavesKind d n met hx EventKind.noConfusion)

/-- An event that the evaluation raises, seen from before the period start to behind it. -/
theorem Device.RaisedOnce.ofEvaluation {d : Device} {n : Nat} {met : Bool} {k : EventKind} {y : EventDetail}
    (h : (d.counted n).RaisedOnce (d.evaluated n met) k y) (hk : k.ofEvaluation) {x : Device}
    (hx : x.events = d.eventsPlanned n met) : d.RaisedOnce x k y := by
  have apart : k ≠ .holdExpired ∧ k ≠ .zoomDone := by
    obtain rfl | rfl | rfl := hk <;> exact ⟨EventKind.noConfusion, EventKind.noConfusion⟩
  exact (h.before (d.counted_leavesKind n apart.1)).after (Device.eventsPlanned_leavesKind d n met hx apart.2)

/-- R78, R92: a completion that comes outside PROBE is discarded. -/
theorem exec_probeComplete_discards {t u : State} (hs : t.dev.planner.state ≠ some .probe) (flying : t.dev.probe ≠ none)
    (h : exec .probeComplete t = .next u) :
    u.dev.planner = t.dev.planner ∧ u.dev.probe = none ∧ u.dev.probeResult.map ProbeResult.taken = some false := by
  obtain ⟨c, hc⟩ := Option.ne_none_iff_exists'.mp flying
  simp only [exec, execProbeComplete, hc] at h
  split at h
  · cases h
    let released := (t.dev.releaseSlot c.activeSlot).releaseSlot c.destSlot
    have planner : released.planner = t.dev.planner :=
      (Device.releaseSlot_rest _ _).2.2.1.trans (Device.releaseSlot_rest _ _).2.2.1
    have discarded : released.takesProbe c = false := by
      unfold Device.takesProbe
      rw [planner]
      split
      · next hp _ => exact absurd hp hs
      · rfl
    have unheard : t.dev.completeProbe c (t.dev.measure t.mem c) =
        { released with probe := none, probeResult := (t.dev.completeProbe c (t.dev.measure t.mem c)).probeResult } := by
      unfold Device.completeProbe
      dsimp only
      rw [discarded]
      rfl
    refine ⟨?_, rfl, congrArg some discarded⟩
    exact (congrArg Device.planner unheard).trans planner
  · cases h

/-- Settles O46: the rows that name an outcome of a planning, and what each outcome leaves. -/
theorem planningRowsHaveTheirOutcomes : Obligations.PlanningRowsHaveTheirOutcomes := by
  refine And.intro (fun s m => ?_) fun s t m c due coherent roles stays starts => ?_
  · exact ⟨outcomeRow rfl s.dev.planner.rampStep_completes_iff, outcomeRow rfl decide_eq_true_iff,
      outcomeRow rfl decide_eq_true_iff, outcomeRow rfl decide_eq_true_iff, outcomeRow rfl s.dev.prepareTimesOut_iff,
      outcomeRow rfl ((s.dev.probeSkips_iff _).trans (by simp only [State.completionWaits, decide_eq_true_iff])),
      outcomeRow rfl s.dev.blendCommits_iff⟩
  intro k raised
  let n := s.dev.nextPeriod
  let entered := s.dev.enterPeriod n (n + 1)
  let found := s.dev.atEvaluation n
  have shows := Device.startPeriod_showsEvaluation rfl s.completionWaits stays
  have planned := Device.startPeriod_planned (d := s.dev) rfl s.completionWaits
  have ht : t = s.withDevice (s.dev.startPeriod s.completionWaits) := by
    have row : exec .periodStart s = .next (s.withDevice (s.dev.startPeriod s.completionWaits)) :=
      congrArg Host.Outcome.next (State.periodStartWhen_of_due due rfl)
    rw [row] at starts
    exact (Host.Outcome.next.inj starts).symm
  generalize s.dev.startPeriod s.completionWaits = x at shows planned ht
  subst ht
  have settled := s.dev.atEvaluation_roles roles n
  have running : found.mode = .streaming := due.1
  refine ⟨fun completes => ⟨?_, ?_⟩, fun holds => ⟨?_, ?_⟩, fun guards => ?_, fun barred unprepared => ?_,
    fun y hs active stalled choice => ?_, fun hc => ⟨fun late => ?_, fun skips blends => ?_, fun commits => ?_⟩⟩
  · exact planned.ramp.trans (Planner.rampStep_completed completes)
  · have once := Device.eventsPlanned_zoomDone (d := entered) completes n s.completionWaits shows.events
    rw [(Device.planWritten_eq entered n s.completionWaits).2.1, ← planned.nominal, ← shows.applied] at once
    exact once.shows coherent
  · exact planned.hold.trans (congrArg (· - 1) holds)
  · exact (Device.eventsPlanned_holdExpired (d := entered) holds n s.completionWaits shows.events).shows coherent
  · exact planned.guard.trans (congrArg (· - 1) guards)
  · have left : x.planner.bars = found.planner.bars :=
      shows.bars.trans (Device.evaluate_bars (d := found) (s.dev.atEvaluation_state n ▸ unprepared) n _ _)
    show x.planner.bars.get m = 0
    rw [left]
    exact (PerPort.get_map _ _ m).trans (congrArg (· - 1) barred)
  · obtain ⟨newer, older, state, change, once⟩ := Device.evaluate_fallsBack (m := m) settled
      ((s.dev.atEvaluation_state n).trans hs) ((s.dev.atEvaluation_role n m).trans active) stalled
      ((s.dev.atEvaluation_decides c).2.1.trans choice) n s.dev.planner.rampStep.2.1 s.completionWaits
    exact ⟨(shows.role y).trans newer, (shows.role m).trans older, shows.state.trans state,
      shows.lastChange.trans change, (once.ofEvaluation (.inr (.inr rfl)) shows.events).shows coherent⟩
  · obtain ⟨c', hs, hc', straight, limit⟩ := s.dev.prepareTimesOut_iff.mp late
    cases hc.symm.trans hc'
    have dest : found.role c.dest = .dest :=
      (s.dev.atEvaluation_role n c.dest).trans ((roles.dest c.dest).mpr (congrArg (Option.map HandoffContext.dest) hc))
    obtain ⟨state, context, bar, role, once⟩ := Device.evaluate_timesOut ((s.dev.atEvaluation_state n).trans hs)
      ((s.dev.atEvaluation_context n).trans hc) ((s.dev.atEvaluation_decides c).1.trans straight) limit
      (settled.destLinked running c.dest dest) n s.dev.planner.rampStep.2.1 s.completionWaits
    exact ⟨shows.state.trans state, shows.context.trans context, (congrArg (PerPort.get · c.dest) shows.bars).trans bar,
      (shows.role c.dest).trans role, (once.ofEvaluation (.inr (.inl rfl)) shows.events).shows coherent⟩
  · obtain ⟨c', hs, hc', straight, hold, idle, limit⟩ := (s.dev.probeSkips_iff _).mp skips
    cases hc.symm.trans hc'
    obtain ⟨reversed, -, pair, held⟩ := s.dev.atEvaluation_decides c
    have skipped := Device.evaluate_skips ((s.dev.atEvaluation_state n).trans hs)
      ((s.dev.atEvaluation_context n).trans hc) (reversed.trans straight) (held.trans hold)
      (idle.imp_left fun ⟨landed, unpaired⟩ => ⟨landed, pair.trans unpaired⟩) limit blends n s.dev.planner.rampStep.2.1
    have state : x.planner.state = some .blend := shows.state.trans (congrArg (·.planner.state) skipped)
    have probe : x.probe = s.dev.probe := shows.probe.trans (congrArg Device.probe skipped :)
    refine ⟨state, { c with deferral := c.deferral + 1, residual := some Residual.skip, step := 1 },
      shows.context.trans (congrArg (·.planner.context) skipped), rfl, rfl, rfl, probe, fun u flying completes => ?_⟩
    refine exec_probeComplete_discards ?_ ?_ completes
    · exact fun probing => by cases state.symm.trans probing
    · exact probe ▸ flying
  · obtain ⟨c', hs, hc', limit⟩ := s.dev.blendCommits_iff.mp commits
    cases hc.symm.trans hc'
    obtain ⟨role, change, once⟩ := Device.evaluate_commits settled running ((s.dev.atEvaluation_state n).trans hs)
      ((s.dev.atEvaluation_context n).trans hc) limit n s.dev.planner.rampStep.2.1 s.completionWaits
    rw [Device.activePort_congr (s.dev.atEvaluation_sameRoles n)] at change
    exact ⟨(shows.role c.dest).trans role, shows.lastChange.trans change,
      (once.ofEvaluation (.inr (.inr rfl)) shows.events).shows coherent⟩

end Sys2Proof.Machine
end

section
/-! PROOFS. The stop of a stream and its drain (R169), for O43. -/

namespace Sys2Proof.Machine

open Sys2Proof

/-! ### The stop actions -/

/-- The events of a stop, in their order: the mode, the hand-off abandoned, the fence cut. -/
def Device.eventsStopped (d : Device) : EventUnit :=
  let entered := d.events.raise d.now .modeChanged (EventDetail.ofPeriod d.currentPeriod (some 4))
  let abandoned := match d.planner.context with
    | some c => entered.raise d.now .handoffAbandoned (EventDetail.ofPort c.dest (some d.period) (some 2))
    | none => entered
  match d.link.fence with
  | some k => abandoned.raise d.now .fenceDone (EventDetail.ofPeriod (some k) (some 1))
  | none => abandoned

/-- The View Planner after the abandon and its stop action (R51, R69, R80). -/
def Device.plannerStopped (d : Device) : Planner :=
  { d.planner with
    queue := [], ramp := none, plans := [], bars := PerPort.all 0, hold := 0, guard := 0, markPending := false
    context := none
    state := match d.planner.context with
      | some _ => some .steady
      | none => d.planner.state
    roles := match d.planner.context with
      | some c => d.planner.roles.set c.dest (d.restRole c.dest)
      | none => d.planner.roles }

/-- The device after every block's stop action. -/
def Device.stopActions (d : Device) : Device :=
  { d with
    ctl := { d.ctl with mode := .stopping }
    planner := d.plannerStopped
    motion := []
    ports := d.ports.map ModulePort.stop
    slots := d.slots.map fun x => if x.unheld then x.free else x
    link := { d.link.stop with fence := none }
    events := d.eventsStopped }

theorem Device.abandon_of_no_context {d : Device} (hc : d.planner.context = none) (reason : AbandonReason) (k : Nat) :
    d.abandon reason k = d := by
  rw [Device.abandon, hc]

/-- R53, R135: outside STREAMING a change of role frees no slot. -/
theorem Device.freedFor_of_not_streaming {d : Device} (h : d.mode ≠ .streaming) (m : PortId) (r : Role) :
    d.freedFor m r = d := if_neg fun both => h both.2

/-- R69, R169: the hand-off abandoned at the entry to STOPPING. -/
theorem Device.abandon_stopped (d : Device) :
    (d.enterMode .stopping).abandon .stopped d.period =
      { d with
        ctl := { d.ctl with mode := .stopping }
        planner := { d.planner with
          context := none, state := d.plannerStopped.state, roles := d.plannerStopped.roles }
        events := Device.eventsStopped { d with link := { d.link with fence := none } } } := by
  rcases hc : d.planner.context with _ | c
  · have none : (d.enterMode .stopping).planner.context = none := hc
    rw [Device.abandon_of_no_context none]
    simp only [Device.eventsStopped, Device.plannerStopped, hc]
    rw [← hc]
    rfl
  · have some : (d.enterMode .stopping).planner.context = some c := hc
    rw [Device.abandon_eq some, Device.freedFor_of_not_streaming Mode.noConfusion]
    simp only [Device.eventsStopped, Device.plannerStopped, hc]
    rfl

/-- R157: the fence cut. -/
theorem Device.cutFence_eq (d : Device) :
    d.cutFence = { d with
      link := { d.link with fence := none }
      events := match d.link.fence with
        | some k => d.events.raise d.now .fenceDone (EventDetail.ofPeriod (some k) (some 1))
        | none => d.events } := by
  unfold Device.cutFence
  rcases hf : d.link.fence with _ | k
  · dsimp only
    rw [← hf]
  · rfl

theorem OutputLink.stop_rest (l : OutputLink) : l.stop = { l with pending := l.stop.pending } := by
  unfold OutputLink.stop
  split
  · rfl
  · split <;> rfl

/-- R169: a STREAM_STOP makes the stop actions and then the drain check. -/
theorem Device.stopStream_eq (d : Device) : d.stopStream = d.stopActions.drainCheck := by
  unfold Device.stopStream
  dsimp only
  rw [Device.abandon_stopped, Device.cutFence_eq]
  simp only [Device.onLink, Device.freeAllUnheld, Device.onPlanner, Device.stopActions]
  rw [OutputLink.stop_rest]
  rfl

/-! ### The drain -/

/-- R169: the end of STOPPING. -/
theorem Device.enterStandbyFromStopping_eq (d : Device) :
    d.enterStandbyFromStopping = Device.raise
      { d with
        ctl := { d.ctl with mode := .standby, session := none }
        planner := { d.planner with roles := PerPort.all .none, state := none, context := none }
        slots := Device.freeSlots
        buffers := Device.freeBuffers
        probe := none }
      .modeChanged (EventDetail.ofPeriod none (some 2)) := rfl

theorem Device.draining_eq_false_iff (d : Device) :
    d.draining = false ↔ d.composing = none ∧ d.link.pending = none ∧ d.link.sending = none := by
  simp only [Device.draining, Bool.or_eq_false_iff, Option.isSome_eq_false_iff, Option.isNone_iff_eq_none, and_assoc]

theorem Device.drainCheck_of_drained {d : Device} (h : d.mode = .stopping) (drained : d.draining = false) :
    d.drainCheck = d.enterStandbyFromStopping := if_pos ⟨h, drained⟩

theorem Device.drainCheck_of_draining {d : Device} (h : d.draining = true) : d.drainCheck = d :=
  if_neg fun both => Bool.noConfusion (both.2.symm.trans h)

/-! ### The pending record at the stop (R148) -/

theorem OutputLink.stop_of_composing {l : OutputLink} {r : PendingRecord} {b : Nat} (hr : l.pending = some r)
    (ho : r.outcome = .composing b) : l.stop = l := by
  simp only [OutputLink.stop, hr, ho]

theorem OutputLink.stop_pending_of_skipped {l : OutputLink} {r : PendingRecord} {cause : RepeatCause}
    (hr : l.pending = some r) (ho : r.outcome = .skipped cause) : l.stop.pending = none := by
  simp only [OutputLink.stop, hr, ho]

theorem OutputLink.stop_pending_isSome_iff (l : OutputLink) :
    l.stop.pending ≠ none ↔ ∃ r b, l.pending = some r ∧ r.outcome = .composing b := by
  rcases hr : l.pending with _ | r
  · simp [OutputLink.stop, hr]
  · rcases ho : r.outcome with b | cause
    · rw [OutputLink.stop_of_composing hr ho, hr]
      simp [ho]
    · rw [OutputLink.stop_pending_of_skipped hr ho]
      simp [ho]

/-- R169: the drain goes on after a stop while a composition, a pending record of one or an emission remains. -/
theorem Device.stopActions_draining_iff (d : Device) :
    d.stopActions.draining = true ↔ d.composing ≠ none ∨ d.link.sending ≠ none ∨
      ∃ r b, d.link.pending = some r ∧ r.outcome = .composing b := by
  have link : d.stopActions.link.pending = d.link.stop.pending ∧ d.stopActions.link.sending = d.link.sending := by
    refine ⟨rfl, ?_⟩
    show d.link.stop.sending = d.link.sending
    rw [OutputLink.stop_rest]
  rw [← OutputLink.stop_pending_isSome_iff, ← Bool.not_eq_false, Device.draining_eq_false_iff, link.1, link.2]
  show ¬ (d.composing = none ∧ _) ↔ _
  tauto

theorem Slot.unheld_iff (x : Slot) : x.unheld = true ↔ x.state = .filling ∨ x.state = .ready := by
  rw [Slot.unheld, Bool.or_eq_true, decide_eq_true_eq, decide_eq_true_eq]

theorem Slot.dropped_state (x : Slot) :
    (if x.unheld then x.free else x).state = .free ∨ (if x.unheld then x.free else x).state = .held := by
  split
  · exact .inl rfl
  · next kept =>
    rw [x.unheld_iff] at kept
    cases hs : x.state <;> simp_all

/-- What the drain check leaves, whether the drain ends or goes on. -/
structure Device.DrainLeaves (d e : Device) : Prop where
  hosts        : e.hostA = d.hostA ∧ e.hostM = d.hostM
  planner      : e.planner = { d.planner with
    roles := e.planner.roles, state := e.planner.state, context := e.planner.context }
  context      : d.planner.context = none → e.planner.context = none
  cal          : e.cal = d.cal
  probeResult  : e.probeResult = d.probeResult
  motion       : e.motion = d.motion
  ports        : e.ports = d.ports
  composePoint : e.composePoint = d.composePoint
  composing    : e.composing = d.composing
  link         : e.link = d.link
  now          : e.now = d.now
  output       : e.ctl.output = d.ctl.output

theorem Device.drainCheck_leaves (d : Device) : d.DrainLeaves d.drainCheck := by
  unfold Device.drainCheck
  split
  · exact ⟨⟨rfl, rfl⟩, rfl, fun _ => rfl, rfl, rfl, rfl, rfl, rfl, rfl, rfl, rfl, rfl⟩
  · exact ⟨⟨rfl, rfl⟩, rfl, id, rfl, rfl, rfl, rfl, rfl, rfl, rfl, rfl, rfl⟩

/-- Settles O43: STREAM_STOP with its stop actions, and DRAIN_END. -/
theorem streamStopDrains : Obligations.StreamStopDrains := by
  intro p s
  refine And.intro (fun high streaming => ?_) ?_
  · have taken := exec_of_taken (i := .streamStop p) (s := s) rfl high (by rw [streaming]; rfl)
    rw [Device.stopStream_eq] at taken
    have leaves := s.dev.stopActions.drainCheck_leaves
    have goes_on := s.dev.stopActions_draining_iff
    have drained (h : s.dev.stopActions.draining = false) := Device.drainCheck_of_drained (d := s.dev.stopActions) rfl h
    have drains (h : s.dev.stopActions.draining = true) := Device.drainCheck_of_draining h
    generalize s.dev.stopActions.drainCheck = e at taken leaves drained drains
    refine ⟨_, taken, rfl, rfl, rfl, Device.setReply_reply _ _ _, fun q hq => ?_, ?_⟩
    · rw [State.answered, Device.setReply_host_of_ne _ _ hq]
      cases q
      · exact leaves.hosts.1
      · exact leaves.hosts.2
    simp only [State.answered, Device.setReply_planner, Device.setReply_motion, Device.setReply_link,
      Device.setReply_composing, Device.setReply_cal, Device.setReply_now, Device.setReply_ctl, Device.setReply_port,
      Device.setReply_probeResult, Device.setReply_composePoint, Device.setReply_events, Device.setReply_mode,
      Device.setReply_role, Device.setReply_slots, Device.setReply_buffers, Device.setReply_probe]
    have planner := leaves.planner
    have link : e.link = { s.dev.link with pending := s.dev.link.stop.pending, fence := none } := by
      rw [leaves.link, Device.stopActions, OutputLink.stop_rest]
    have port (m : PortId) : e.port m = ModulePort.stop (s.dev.port m) := by
      rw [Device.port, leaves.ports]
      exact PerPort.get_map _ _ m
    refine ⟨(congrArg Planner.queue planner :), (congrArg Planner.ramp planner :), (congrArg Planner.plans planner :),
      (congrArg Planner.bars planner :), (congrArg Planner.hold planner :), (congrArg Planner.guard planner :),
      (congrArg Planner.markPending planner :), leaves.context rfl, (congrArg Planner.nominal planner :),
      (congrArg Planner.applied planner :), (congrArg Planner.lastChange planner :), leaves.motion,
      (congrArg OutputLink.fence link :), (congrArg OutputLink.lastTrailer link :),
      (congrArg OutputLink.nonFresh link :), leaves.composing, (congrArg OutputLink.sending link :), leaves.cal,
      leaves.now, leaves.output, port, leaves.probeResult, leaves.composePoint,
      (congrArg Planner.captureSelect planner :), fun busy => ?_, fun idle => ?_, fun idle => ?_, fun busy => ?_⟩
    · rw [drains (goes_on.mpr busy)]
      refine ⟨rfl, rfl, ?_, fun r cause hr ho => OutputLink.stop_pending_of_skipped hr ho, ?_⟩
      · show s.dev.plannerStopped.roles = _
        rcases hc : s.dev.planner.context with _ | c <;> simp only [Device.plannerStopped, hc, Device.restRole_eq]
      · exact List.map_congr_left fun x _ => if_congr x.unheld_iff rfl rfl
    · rw [drained (Bool.eq_false_iff.mpr (mt goes_on.mp idle))]
      exact (congrArg Device.events (Device.enterStandbyFromStopping_eq _) :)
    · rw [drained (Bool.eq_false_iff.mpr (mt goes_on.mp idle))]
      refine ⟨rfl, rfl, rfl, fun m => ?_, rfl, rfl, rfl, ?_⟩
      · cases m <;> rfl
      · exact not_not.mp fun held => idle (.inr (.inr ((OutputLink.stop_pending_isSome_iff _).mp held)))
    · rw [drains (goes_on.mpr busy)]
      refine ⟨rfl, rfl, rfl, rfl, fun x hx => ?_, fun r b hr ho => ?_⟩
      · obtain ⟨y, -, rfl⟩ := List.mem_map.mp hx
        exact y.dropped_state
      · exact (congrArg OutputLink.pending (OutputLink.stop_of_composing hr ho)).trans hr
  · refine congrArg Host.Outcome.next ?_
    have guard : (s.dev.mode = .stopping ∧ s.dev.draining = false) ↔ (s.dev.mode = .stopping ∧
        s.dev.composing = none ∧ s.dev.link.pending = none ∧ s.dev.link.sending = none) :=
      and_congr_right fun _ => s.dev.draining_eq_false_iff
    by_cases ends : s.dev.mode = .stopping ∧ s.dev.draining = false
    · rw [if_pos (guard.mp ends), State.onDevice, Device.drainCheck_of_drained ends.1 ends.2,
        Device.enterStandbyFromStopping_eq]
      rfl
    · rw [if_neg (mt guard.mpr ends), State.onDevice, Device.drainCheck, if_neg ends]

end Sys2Proof.Machine
end

section
/-! PROOFS. The start of a stream (R168), for O42. -/

namespace Sys2Proof.Machine

open Sys2Proof

/-! ### The session-start values (R79, R132, R142, R165) -/

/-- The View Planner's session-start values with a port ACTIVE. -/
def Device.plannerStarted (d : Device) (a : PortId) : Planner :=
  { d.planner with
    roles := ⟨d.startRole a .p0, d.startRole a .p1, d.startRole a .p2, d.startRole a .p3⟩
    state := some .steady, context := none, bars := PerPort.all 0, hold := 0, guard := 0, markPending := false
    plans := [], applied := max d.planner.nominal (d.calOf a).lower }

/-- The device that the first planning finds, in period 0. -/
def Device.begun (d : Device) (a : PortId) : Device :=
  { d with
    ctl := { d.ctl with mode := .streaming, session := some { start := d.now, current := 0, nextPlan := 1 } }
    planner := d.plannerStarted a
    composePoint := 0
    link := { d.link with nonFresh := 0, frozenReported := false }
    events := d.events.raise d.now .modeChanged (EventDetail.ofPeriod d.currentPeriod (some 3)) }

theorem Device.begun_role (d : Device) (a m : PortId) : (d.begun a).role m = d.startRole a m := by
  cases m <;> rfl

theorem Device.startRole_self (d : Device) (a : PortId) : d.startRole a a = .active := if_pos rfl

theorem Device.startRole_ne_active {d : Device} {a m : PortId} (h : m ≠ a) : d.startRole a m ≠ .active := by
  rw [Device.startRole, if_neg h]
  split
  · exact d.standbyRole_ne_active m
  · exact Role.noConfusion

theorem Device.begun_activePort (d : Device) (a : PortId) : (d.begun a).activePort = some a := by
  refine Device.activePort_of_unique ((d.begun_role a a).trans (d.startRole_self a)) fun n hn => ?_
  by_contra other
  exact Device.startRole_ne_active other ((d.begun_role a n).symm.trans hn)

/-- R168: the blocks at their session-start values, in period 0 of the session. -/
theorem Device.begun_eq (d : Device) (a : PortId) :
    (((((d.enterMode .streaming).startPlanner a).startOutput).beginSession).enterPeriod 0 1) = d.begun a := by
  have applied : (d.enterMode .streaming).startPlanner a =
      { d.enterMode .streaming with planner := d.plannerStarted a } := by
    unfold Device.startPlanner
    have active := d.begun_activePort a
    rw [Device.recomputeApplied_of_active (a := a) (st := .steady) ?_ rfl (.inl rfl)]
    · rfl
    · exact (Device.activePort_congr rfl).trans active
  rw [applied]
  rfl

/-- R168: with no ramp, no request and no count running, stages 1 and 2 of the first planning change nothing. -/
theorem Device.begun_counted {d : Device} (hr : d.planner.ramp = none) (hq : d.planner.queue = []) (a : PortId) :
    (d.begun a).counted 0 = d.begun a ∧ (d.begun a).planner.rampStep.2 = (none, false) := by
  have still : (d.begun a).planner.rampStep = ((d.begun a).planner, none, false) := by
    have ramp : (d.begun a).planner.ramp = none := hr
    have queue : (d.begun a).planner.queue = [] := hq
    simp only [Planner.rampStep, ramp, queue]
  refine ⟨?_, by rw [still]⟩
  rw [Device.counted, still]
  rfl

/-! ### The first evaluation (R60) -/

/-- What the first evaluation makes of the device. -/
structure Device.FirstEvaluation (b : Device) (a : PortId) (e : Device) : Prop where
  rest  : e = { b with
    planner := { b.planner with
      roles := e.planner.roles, state := e.planner.state, context := e.planner.context }
    events := e.events }
  active : e.role a = .active
  others : ∀ n, n ≠ a → e.role n = .dest ∧ (b.port n).state = .linked ∨ e.role n = b.role n
  steady : e.planner.context = none → e.planner.state = some .steady ∧ e.events = b.events
  begins : ∀ c, e.planner.context = some c → e.planner.state = some .prepare ∧ e.role c.dest = .dest ∧
    e.events = b.events.raise b.now .handoffStarted
      { port := some c.dest, requestId := none, period := some 0, reason := some c.direction.number, zooms := none }

theorem Device.firstEvaluation {d : Device} (hr : d.planner.ramp = none) (hq : d.planner.queue = []) {a : PortId}
    (link : (d.port a).state = .linked) : (d.begun a).FirstEvaluation a ((d.begun a).evaluated 0 false) := by
  have active : (d.begun a).role a = .active := (d.begun_role a a).trans (d.startRole_self a)
  rw [Device.evaluated, (Device.begun_counted hr hq a).1, (Device.begun_counted hr hq a).2,
    Device.evaluate_of_steady rfl, Device.evaluateSteady_of_linked (d.begun_activePort a) link]
  split
  · next n dir dest =>
    rw [if_pos ⟨rfl, rfl⟩, Device.beginHandoff_eq]
    have apart := Device.destination_ne dest
    have linked := Device.destination_linked dest
    refine ⟨rfl, ?_, fun m hm => ?_, fun absent => absurd absent (Option.some_ne_none _), fun c hc => ?_⟩
    · exact (PerPort.get_set_eq _ n a _).trans ((if_neg apart.symm).trans active)
    · by_cases same : m = n
      · subst same
        exact .inl ⟨PerPort.get_set _ _ _, linked⟩
      · exact .inr ((PerPort.get_set_eq _ n m _).trans (if_neg same))
    · cases hc
      exact ⟨rfl, PerPort.get_set _ _ _, rfl⟩
  · exact ⟨rfl, active, fun n _ => .inr rfl, fun _ => ⟨rfl, rfl⟩, fun c hc => absurd hc (Option.some_ne_none c).symm⟩

/-! ### The first planning -/

theorem Device.foldl_advanceStall_of_unstalled (l : List PortId) {d : Device} (h : ∀ m, (d.port m).state ≠ .stalled) :
    l.foldl Device.advanceStall d = d := by
  induction l with
  | nil => rfl
  | cons m rest ih =>
    rw [List.foldl_cons, Device.advanceStall_eq, Device.advanceAt, if_neg fun resets => h m resets.1, if_neg (h m), ih]

/-- R168: an accepted start runs planning 0, and no port's stall age advances. -/
theorem Device.startStream_eq {d : Device} {a : PortId} (unstalled : ∀ m, (d.port m).state ≠ .stalled) :
    d.startStream a = (d.begun a).plan 0 false := by
  rw [Device.startStream, Device.startPeriod_of_next (k := 0) rfl, Device.begun_eq]
  refine Device.foldl_advanceStall_of_unstalled _ fun m => ?_
  obtain ⟨g, port⟩ := Device.plan_port (d.begun a) 0 false m
  rw [port]
  exact unstalled m

/-- R56: the device after planning 0, from its evaluation e and the plan v that it writes. -/
def Device.firstPlanned (e : Device) (v : ViewPlan) : Device :=
  { e with
    planner := { e.planner with applied := v.applied, plans := [v], markPending := false }
    ports := ⟨e.requested 0 v.syncSet .p0, e.requested 0 v.syncSet .p1, e.requested 0 v.syncSet .p2,
      e.requested 0 v.syncSet .p3⟩ }

theorem Device.firstPlanned_port (e : Device) (v : ViewPlan) (m : PortId) :
    (e.firstPlanned v).port m = e.requested 0 v.syncSet m := by
  cases m <;> rfl

/-- R168: planning 0 from its evaluation. -/
theorem Device.begun_plan {d : Device} (hr : d.planner.ramp = none) (hq : d.planner.queue = []) (a : PortId) :
    let e := (d.begun a).evaluated 0 false
    let v := (d.begun a).planWritten 0 false
    (d.begun a).plan 0 false = e.firstPlanned v := by
  intro e v
  have events : (d.begun a).eventsPlanned 0 false = e.events := by
    rw [Device.eventsPlanned, (Device.begun_counted hr hq a).2]
    rfl
  rw [Device.plan_eq, events, Device.recomputeApplied_eq]
  rfl

section
variable {d e : Device} {a : PortId}

theorem Device.FirstEvaluation.port (first : (d.begun a).FirstEvaluation a e) (m : PortId) : e.port m = d.port m := by
  rw [first.rest]
  rfl

theorem Device.FirstEvaluation.activePort (first : (d.begun a).FirstEvaluation a e) : e.activePort = some a := by
  refine Device.activePort_of_unique first.active fun n hn => ?_
  by_contra other
  obtain dest | same := first.others n other
  · exact Role.noConfusion (dest.1.symm.trans hn)
  · exact Device.startRole_ne_active other ((d.begun_role a n).symm.trans (same.symm.trans hn))

/-- R79: a role other than COLD after the first evaluation is that of a LINKED port. -/
theorem Device.FirstEvaluation.linked (first : (d.begun a).FirstEvaluation a e) (link : (d.port a).state = .linked)
    {m : PortId} (warm : e.role m ≠ .cold) : (d.port m).state = .linked := by
  by_cases same : m = a
  · exact same ▸ link
  · obtain dest | role := first.others m same
    · exact dest.2
    · by_contra unlinked
      refine warm (role.trans ((d.begun_role a m).trans ?_))
      rw [Device.startRole, if_neg same, if_neg unlinked]

/-- R77: every port but the COLD ones is in the first sync set. -/
theorem Device.FirstEvaluation.mem_syncSet (first : (d.begun a).FirstEvaluation a e) {m : PortId} :
    m ∈ e.syncSet 0 ↔ e.role m ≠ .cold := by
  rw [Device.mem_syncSet]
  refine ⟨?_, fun warm => ?_⟩
  · rintro (h | h | ⟨h, -⟩) <;> rw [h] <;> exact Role.noConfusion
  · by_cases same : m = a
    · exact .inl (same ▸ first.active)
    · obtain dest | role := first.others m same
      · exact .inr (.inl dest.1)
      · refine .inr (.inr ?_)
        rw [first.port]
        rw [role, d.begun_role, Device.startRole, if_neg same, Device.standbyRole_eq] at warm ⊢
        split at warm
        · next link =>
          rw [if_pos link]
          split at warm
          · next configured =>
            rw [if_pos configured]
            obtain ⟨c, hc, -⟩ := configured
            exact ⟨rfl, c, hc, Nat.zero_mod _⟩
          · exact absurd rfl warm
        · exact absurd rfl warm

/-- R58: the applied zoom of the first planning. -/
theorem Device.FirstEvaluation.applied (first : (d.begun a).FirstEvaluation a e) :
    e.recomputeApplied.planner.applied = max d.planner.nominal (d.calOf a).lower := by
  have state : e.planner.state = some .steady ∨ e.planner.state = some .prepare := by
    rcases hc : e.planner.context with _ | c
    · exact .inl (first.steady hc).1
    · exact .inr (first.begins c hc).1
  have nominal : e.planner.nominal = d.planner.nominal := by rw [first.rest]; rfl
  have cal : e.calOf a = d.calOf a := by rw [first.rest]; rfl
  obtain hs | hs := state
  · rw [Device.recomputeApplied_of_active first.activePort hs (.inl rfl), ← nominal, ← cal]
    rfl
  · rw [Device.recomputeApplied_of_active first.activePort hs (.inr (.inl rfl)), ← nominal, ← cal]
    rfl

end

/-- Settles O42: STREAM_START. -/
theorem streamStartBeginsTheSession : Obligations.StreamStartBeginsTheSession := by
  intro p s high standby
  have free : availability s.dev.mode .streamStart = none := by rw [standby]; rfl
  refine ⟨fun sizeless => ?_, fun sized unsourced => ?_, fun a sized preferred hr hq unstalled => ?_⟩
  · refine exec_of_ownerRefuses (i := .streamStart p) rfl high free ?_
    rw [Device.streamStart, if_pos sizeless]
  · refine exec_of_ownerRefuses (i := .streamStart p) rfl high free ?_
    rw [Device.streamStart, if_neg sized, unsourced]
  · have taken := exec_of_taken (i := .streamStart p) (s := s) rfl high free
    have answer : s.dev.streamStart =
        ({ status := .ok, payload := u48 s.dev.now ++ portByte a }, s.dev.startStream a) := by
      rw [Device.streamStart, if_neg sized, preferred]
    have link : (s.dev.port a).state = .linked :=
      Device.isCandidate_linked (Device.preferred_portsWhere_mem preferred)
    have first := Device.firstEvaluation hr hq link
    have written := Device.planWritten_eq (s.dev.begun a) 0 false
    rw [answer, Device.startStream_eq unstalled, Device.begun_plan hr hq] at taken
    dsimp only at taken written
    generalize (s.dev.begun a).evaluated 0 false = e at taken written first
    obtain ⟨period, nominal, request, -, mark, applied, active, sync, -⟩ := written
    generalize (s.dev.begun a).planWritten 0 false = v at taken period nominal request mark applied active sync
    have mem (m : PortId) : m ∈ v.syncSet ↔ e.role m ≠ .cold := by rw [sync, first.mem_syncSet]
    refine ⟨_, v, taken, rfl, rfl, rfl, Device.setReply_reply _ _ _, fun q hq => ?_, ?_⟩
    · rw [State.answered, Device.setReply_host_of_ne _ _ hq, first.rest]
      cases q <;> rfl
    simp only [State.answered, Device.setReply_planner, Device.setReply_motion, Device.setReply_link,
      Device.setReply_cal, Device.setReply_ctl, Device.setReply_port, Device.setReply_probeResult,
      Device.setReply_composePoint, Device.setReply_events, Device.setReply_role, Device.setReply_slots,
      Device.setReply_buffers]
    have rest := first.rest
    have asks {m : PortId} (hm : m ∈ v.syncSet) :
        ∃ x, ((e.firstPlanned v).port m).pendingFsync = some x ∧ x.period = 0 := by
      have linked := first.linked link ((mem m).mp hm)
      rw [Device.firstPlanned_port, Device.requested,
        if_pos ⟨hm, (ModulePort.hasLink_iff _).mpr (.inl (first.port m ▸ linked))⟩]
      exact ⟨_, rfl, rfl⟩
    refine ⟨(congrArg Device.ctl rest :), (congrArg Device.composePoint rest :), (congrArg Device.link rest :),
      first.active, fun n hn => ?_, (congrArg (·.planner.nominal) rest :), applied.trans first.applied,
      (congrArg (·.planner.bars) rest :), (congrArg (·.planner.hold) rest :), (congrArg (·.planner.guard) rest :),
      rfl, ?_, rfl, period, active.trans first.activePort, (mem a).mpr ?_, mark, ?_, mem, fun m hm => ?_,
      fun m hm => ?_, ⟨first.steady, ?_⟩, ?_⟩
    · obtain dest | role := first.others n hn
      · exact .inl dest.1
      · exact .inr (role.trans ((s.dev.begun_role a n).trans (if_neg hn)))
    · rcases hc : e.planner.context with _ | c
      · exact .inl (first.steady hc).1
      · exact .inr (first.begins c hc).1
    · rw [first.active]
      exact Role.noConfusion
    · exact asks ((mem a).mpr (by rw [first.active]; exact Role.noConfusion))
    · exact asks hm
    · rw [Device.firstPlanned_port, Device.requested, if_neg fun both => hm both.1, first.port]
    · exact first.begins
    · exact ⟨(congrArg Device.cal rest :), (congrArg Device.motion rest :), (congrArg Device.slots rest :),
        (congrArg Device.buffers rest :), (congrArg Device.probeResult rest :)⟩

end Sys2Proof.Machine
end

section
/-! PROOFS. The completion of a probe (R85 to R89, R66), for O49. -/

namespace Sys2Proof.Machine

open Sys2Proof

/-! ### The patches and their cost (R85, R86) -/

theorem patchSad_append {xs ys : List Nat} (h : xs.length = ys.length) (us vs : List Nat) :
    patchSad (xs ++ us) (ys ++ vs) = patchSad xs ys + patchSad us vs := by
  induction xs generalizing ys with
  | nil =>
    cases ys with
    | nil => simp [patchSad]
    | cons y ys => cases h
  | cons x xs ih =>
    cases ys with
    | nil => cases h
    | cons y ys =>
      rw [List.cons_append, List.cons_append, patchSad, patchSad, ih (Nat.succ.inj h)]
      omega

theorem absDiff_eq (x y : Nat) : x - y + (y - x) = ((x : Int) - y).natAbs := by omega

/-- R86: the summed differences of two rows. -/
theorem patchSad_map {α : Type} (l : List α) (f g : α → Nat) :
    patchSad (l.map f) (l.map g) = (l.map fun a => ((f a : Int) - g a).natAbs).sum := by
  induction l with
  | nil => rfl
  | cons a l ih => rw [List.map_cons, List.map_cons, List.map_cons, patchSad, ih, absDiff_eq, List.sum_cons]

/-- R86: the summed differences of two patches of the same rows and columns. -/
theorem patchSad_flatMap {α β : Type} (rows : List α) (columns : List β) (f g : α → β → Nat) :
    patchSad (rows.flatMap fun j => columns.map (f j)) (rows.flatMap fun j => columns.map (g j)) =
      (rows.map fun j => (columns.map fun i => ((f j i : Int) - g j i).natAbs).sum).sum := by
  induction rows with
  | nil => rfl
  | cons j rest ih =>
    rw [List.flatMap_cons, List.flatMap_cons, patchSad_append (by rw [List.length_map, List.length_map]), patchSad_map,
      ih, List.map_cons, List.sum_cons]

/-! ### The contrast (R88) -/

/-- A fold that chooses among values ends at the value that is chosen before all others. -/
theorem foldl_chosen {op : Nat → Nat → Nat} {ahead : Nat → Prop} {z : Nat} (stays : ∀ y, ahead y → op z y = z)
    (takes : ∀ x, ahead x → op x z = z) (among : ∀ x y, ahead x → ahead y → ahead (op x y)) {l : List Nat}
    (all : ∀ y ∈ l, ahead y) (mem : z ∈ l) {x : Nat} (hx : ahead x) : l.foldl op x = z := by
  have kept (rest : List Nat) (h : ∀ y ∈ rest, ahead y) : rest.foldl op z = z := by
    induction rest with
    | nil => rfl
    | cons y rest ih =>
      rw [List.foldl_cons, stays y (h y List.mem_cons_self)]
      exact ih fun w hw => h w (List.mem_cons_of_mem y hw)
  induction l generalizing x with
  | nil => cases mem
  | cons y rest ih =>
    have later (w : Nat) (hw : w ∈ rest) : ahead w := all w (List.mem_cons_of_mem y hw)
    rw [List.foldl_cons]
    obtain rfl | mem := List.mem_cons.mp mem
    · rw [takes x hx]
      exact kept rest later
    · exact ih later mem (among x y hx (all y List.mem_cons_self))

/-- R88: the contrast of a patch from its greatest and its least sample. -/
theorem patchContrast_eq {patch : List Nat} {hi lo : Nat} (high : hi ∈ patch) (low : lo ∈ patch)
    (within : ∀ x ∈ patch, lo ≤ x ∧ x ≤ hi) (sample : lo ≤ 255) : patchContrast patch = hi - lo := by
  have greatest : patch.foldl max 0 = hi :=
    foldl_chosen (ahead := (· ≤ hi)) (fun y hy => max_eq_left hy) (fun x hx => max_eq_right hx)
      (fun x y hx hy => max_le hx hy) (fun y hy => (within y hy).2) high (Nat.zero_le hi)
  have least : patch.foldl min 255 = lo :=
    foldl_chosen (ahead := (lo ≤ ·)) (fun y hy => min_eq_left hy) (fun x hx => min_eq_right hx)
      (fun x y hx hy => le_min hx hy) (fun y hy => (within y hy).1) low sample
  rw [patchContrast, greatest, least]

theorem interpolate_le {src : Nat → Nat → Nat} (h : ∀ n m, src n m ≤ 255) (q r : Nat) : interpolate src q r ≤ 255 := by
  unfold interpolate
  have hx : q % 256 < 256 := Nat.mod_lt _ (by omega)
  have hy : r % 256 < 256 := Nat.mod_lt _ (by omega)
  generalize q / 256 = n
  generalize r / 256 = m
  generalize q % 256 = fx at *
  generalize r % 256 = fy at *
  have sum := weights_sum hx hy
  have w00 := Nat.mul_le_mul_right ((256 - fx) * (256 - fy)) (h n m)
  have w10 := Nat.mul_le_mul_right (fx * (256 - fy)) (h (n + 1) m)
  have w01 := Nat.mul_le_mul_right ((256 - fx) * fy) (h n (m + 1))
  have w11 := Nat.mul_le_mul_right (fx * fy) (h (n + 1) (m + 1))
  dsimp only
  simp only [mul_assoc]
  omega

theorem byte_le (b : Byte) : b.toNat ≤ 255 := Nat.le_of_lt_succ b.isLt

theorem renderFrame_le (mem : Memory) (slot : Nat) (frame : Nat × Nat) (win : Window) (out : Nat × Nat) (p : Plane)
    (i j : Nat) : renderFrame mem slot frame win out p i j ≤ 255 :=
  interpolate_le (fun col row => byte_le (mem.read (sampleAddress (slotBase slot) frame.1 frame.2 p col row))) _ _

theorem mem_probePatch {mem : Memory} {slot : Nat} {frame : Nat × Nat} {win : Window} {out : Nat × Nat} {x : Nat} :
    x ∈ probePatch mem slot frame win out ↔
      ∃ i j, i < 64 ∧ j < 64 ∧ renderFrame mem slot frame win out .y (out.1 / 2 - 32 + i) (out.2 / 2 - 32 + j) = x := by
  simp only [probePatch, List.mem_flatMap, List.mem_map, List.mem_range]
  exact ⟨fun ⟨j, hj, i, hi, h⟩ => ⟨i, j, hi, hj, h⟩, fun ⟨i, j, hi, hj, h⟩ => ⟨j, hj, i, hi, h⟩⟩

/-! ### The completion (R66, R89) -/

theorem Device.takesProbe_iff (d : Device) (c : ProbeContext) :
    d.takesProbe c = true ↔ ∃ h, d.planner.state = some .probe ∧ d.planner.context = some h ∧ h.dest = c.destPort ∧
      d.mode = .streaming := by
  unfold Device.takesProbe
  split
  · next h hs hc =>
    rw [Bool.and_eq_true, decide_eq_true_eq, decide_eq_true_eq]
    refine ⟨fun ⟨dest, mode⟩ => ⟨h, hs, hc, dest, mode⟩, fun ⟨h', _, hc', dest, mode⟩ => ?_⟩
    cases hc.symm.trans hc'
    exact ⟨dest, mode⟩
  · next absent => exact ⟨fun h => Bool.noConfusion h, fun ⟨h, hs, hc, _⟩ => absurd hc (absent h hs)⟩

theorem Device.releases_planner (d : Device) (x y : Nat) :
    ((d.releaseSlot x).releaseSlot y).planner = d.planner ∧ ((d.releaseSlot x).releaseSlot y).mode = d.mode :=
  ⟨(Device.releaseSlot_rest _ y).2.2.1.trans (d.releaseSlot_rest x).2.2.1,
    congrArg ModeController.mode ((Device.releaseSlot_keeps _ y).ctl.trans (d.releaseSlot_keeps x).ctl)⟩

/-- R85 to R88: the measurement. -/
theorem Device.measure_eq {d : Device} {mem : Memory} {c : ProbeContext} {best : Nat × Int × Int} {contrast : Nat}
    {q : ProbeMeasure} (hq : d.measure mem c = q) (hb : chosenOffset (d.probeCost mem c) = best)
    (hc : patchContrast (d.sourcePatch mem c) = contrast) :
    q.rx = best.2.1 ∧ q.ry = best.2.2 ∧ q.bestCost = best.1 ∧ q.contrast = contrast ∧
      q.score = probeScore best.1 contrast ∧ q.accepted = decide (d.ctl.handoff.probeThreshold ≤ q.score) := by
  rw [← hq, Device.measure, hb, hc]
  exact ⟨rfl, rfl, rfl, rfl, rfl, rfl⟩

/-- R89: the last result record that a completion writes. -/
def Device.resultOf (d : Device) (c : ProbeContext) (q : ProbeMeasure) (taken : Bool) : ProbeResult :=
  { activePort := c.activePort, destPort := c.destPort, period := c.period, rx := q.rx, ry := q.ry,
    bestCost := q.bestCost, contrast := q.contrast, score := q.score, accepted := q.accepted, taken := taken,
    time := d.now }

/-- R66, R89: a completion taken in PROBE. -/
theorem Device.completeProbe_of_taken {d : Device} {c : ProbeContext} {h : HandoffContext}
    (hs : d.planner.state = some .probe) (hc : d.planner.context = some h) (dest : h.dest = c.destPort)
    (streaming : d.mode = .streaming) (q : ProbeMeasure) :
    d.completeProbe c q =
      { (d.releaseSlot c.activeSlot).releaseSlot c.destSlot with
        planner := { d.planner with
          state := some .blend, context := some { h with residual := some q.residual, step := 0 } }
        probe := none
        probeResult := some (d.resultOf c q true) } := by
  obtain ⟨planner, mode⟩ := d.releases_planner c.activeSlot c.destSlot
  unfold Device.completeProbe
  generalize (d.releaseSlot c.activeSlot).releaseSlot c.destSlot = released at planner mode
  have takes : released.takesProbe c = true :=
    (released.takesProbe_iff c).mpr ⟨h, planner ▸ hs, planner ▸ hc, dest, mode.trans streaming⟩
  dsimp only
  rw [takes, if_pos rfl, Device.takeProbe, planner, hc]
  dsimp only
  rw [Device.onPlanner, planner]
  rfl

/-- R66, R89: a completion that the View Planner discards. -/
theorem Device.completeProbe_of_untaken {d : Device} {c : ProbeContext}
    (other : ∀ h, d.planner.state = some .probe → d.planner.context = some h → h.dest = c.destPort →
      d.mode ≠ .streaming) (q : ProbeMeasure) :
    d.completeProbe c q =
      { (d.releaseSlot c.activeSlot).releaseSlot c.destSlot with
        probe := none, probeResult := some (d.resultOf c q false) } := by
  obtain ⟨planner, mode⟩ := d.releases_planner c.activeSlot c.destSlot
  unfold Device.completeProbe
  generalize (d.releaseSlot c.activeSlot).releaseSlot c.destSlot = released at planner mode
  have unheard : released.takesProbe c = false := by
    refine Bool.eq_false_iff.mpr fun takes => ?_
    obtain ⟨h, hs, hc, dest, streaming⟩ := (released.takesProbe_iff c).mp takes
    exact other h (planner ▸ hs) (planner ▸ hc) dest (mode ▸ streaming)
  dsimp only
  rw [unheard]
  rfl

/-- Settles O49: PROBE_COMPLETE and its measurement. -/
theorem probeCompletes : Obligations.ProbeCompletes := by
  intro s
  refine ⟨fun idle => ?_, fun c hc outside => ?_, fun c hc inside => ?_⟩
  · simp only [exec, execProbeComplete, idle]
  · simp only [exec, execProbeComplete, hc, outside, Bool.false_eq_true, if_false]
  intro q best result released out place source
  have completes : exec .probeComplete s = .next (s.withDevice (s.dev.completeProbe c q)) := by
    simp only [exec, execProbeComplete, hc, inside, if_true]
    rfl
  have measured : s.dev.measure s.mem c = q := by simp only [q]
  have chosen : chosenOffset (s.dev.probeCost s.mem c) = best := by simp only [best]
  obtain ⟨rx, ry, least, wide, score, accepted⟩ := Device.measure_eq measured chosen rfl
  clear_value q best
  have written (b : Bool) : s.dev.resultOf c q b = result b := by
    simp only [Device.resultOf, result, rx, ry, least]
  refine ⟨fun rx ry => ?_, fun hi lo high low within => ?_, ?_, ?_, fun h hs hctx dest streaming => ?_,
    fun other => ?_⟩
  · rw [Device.probeCost, patchCost, Device.sourcePatch, Device.candidatePatch, probePatch, probePatch,
      patchSad_flatMap]
  · have sample : lo ≤ 255 := by
      obtain ⟨i, j, -, -, rfl⟩ := low
      exact renderFrame_le ..
    rw [wide]
    refine patchContrast_eq (mem_probePatch.mpr high) (mem_probePatch.mpr low) (fun x hx => ?_) sample
    obtain ⟨i, j, hi, hj, rfl⟩ := mem_probePatch.mp hx
    exact within i j hi hj
  · rw [score, wide, probeScore]
  · rw [accepted, decide_eq_true_iff]
  · intro residual
    have filled : q.residual = residual := by
      simp only [ProbeMeasure.residual, residual, rx, ry]
    refine completes.trans (congrArg (fun d => Host.Outcome.next (s.withDevice d))
      ((Device.completeProbe_of_taken hs hctx dest streaming q).trans ?_))
    simp only [written, filled, released]
  · refine completes.trans (congrArg (fun d => Host.Outcome.next (s.withDevice d))
      ((Device.completeProbe_of_untaken other q).trans ?_))
    simp only [written, released]

end Sys2Proof.Machine
end

section
/-! PROOFS. The compose deadline (R143 to R145, R152), for O50. -/

namespace Sys2Proof.Machine

open Sys2Proof

/-! ### Slot selection (Table 9-4) -/

theorem Device.select_cases (d : Device) (plan : ViewPlan) :
    let selected := fun (x y : Option (Slot × Bool)) (alpha : Nat) (forced : Bool) =>
      some ({ active := x, dest := y, alpha := alpha, forced := forced } : Selection)
    (plan.active = none → d.select plan = none) ∧
      ∀ a, plan.active = some a →
        (plan.blend = none → d.pair a plan.period = none → d.select plan = none) ∧
        (∀ x, plan.blend = none → d.pair a plan.period = some x → d.select plan = selected (some x) none 0 false) ∧
        ∀ b, plan.blend = some b →
          (d.pair a plan.period = none → d.pair b.dest plan.period = none → d.select plan = none) ∧
          (∀ x y, d.pair a plan.period = some x → d.pair b.dest plan.period = some y →
            d.select plan = selected (some x) (some y) b.alpha false) ∧
          (∀ x, d.pair a plan.period = some x → d.pair b.dest plan.period = none →
            d.select plan = selected (some x) none 0 true) ∧
          (∀ y, d.pair a plan.period = none → d.pair b.dest plan.period = some y →
            d.select plan = selected none (some y) 256 true) := by
  intro selected
  refine ⟨fun none => ?_, fun a ha => ⟨fun hb none => ?_, fun x hb hx => ?_, fun b hb =>
    ⟨fun no_x no_y => ?_, fun x y hx hy => ?_, fun x hx no_y => ?_, fun y no_x hy => ?_⟩⟩⟩
  · simp only [Device.select, none]
  · simp only [Device.select, ha, hb, none, Option.map_none]
  · simp only [Device.select, ha, hb, hx, Option.map_some, selected]
  · simp only [Device.select, ha, hb, no_x, no_y]
  · simp only [Device.select, ha, hb, hx, hy, selected]
  · simp only [Device.select, ha, hb, hx, no_y, selected]
  · simp only [Device.select, ha, hb, no_x, hy, selected]

/-! ### The trailer of a composition (R152) -/

theorem Selection.centre_of {s : Selection} {centre : Nat} (ha : ∀ x, s.active = some x → x.1.centre = some centre)
    (hd : ∀ y, s.active = none → s.dest = some y → y.1.centre = some centre) (used : s.active ≠ none ∨ s.dest ≠ none) :
    s.centre = centre := by
  rcases hx : s.active with _ | x
  · rcases hy : s.dest with _ | y
    · exact (used.elim (· hx) (· hy)).elim
    · simp only [Selection.centre, hx, hy, hd y hx hy, Option.getD_some]
  · simp only [Selection.centre, hx, ha x hx, Option.getD_some]

/-- R145: the window of the ACTIVE slot that is rendered. -/
theorem Device.activeAnswer_eq_some {d : Device} {plan : ViewPlan} {s : Selection} {shift : MotionShift}
    {w : WindowAnswer} :
    d.activeAnswer plan s shift = some w ↔
      ∃ a, plan.active = some a ∧ s.active ≠ none ∧ w = d.window a plan.applied shift.ex shift.ey 0 0 := by
  unfold Device.activeAnswer
  rcases plan.active with _ | a <;> rcases s.active with _ | x <;> simp [eq_comm]

/-- R145: the window of the DEST slot that is rendered. -/
theorem Device.destAnswer_eq_some {d : Device} {plan : ViewPlan} {s : Selection} {shift : MotionShift}
    {w : WindowAnswer} :
    d.destAnswer plan s shift = some w ↔
      ∃ b, plan.blend = some b ∧ s.dest ≠ none ∧ w = d.window b.dest plan.applied shift.ex shift.ey b.rx b.ry := by
  unfold Device.destAnswer
  rcases plan.blend with _ | b <;> rcases s.dest with _ | y <;> simp [eq_comm]

theorem isLate_iff (o : Option (Slot × Bool)) : isLate o = true ↔ ∃ x, o = some x ∧ x.2 = true := by
  rcases o with _ | x <;> simp [isLate]

/-- A flag of either window that is rendered. -/
theorem either_flag_iff {α : Type} (f : α → Bool) (u v : Option α) :
    ((u.map f).getD false || (v.map f).getD false) = true ↔ ∃ w, (u = some w ∨ v = some w) ∧ f w = true := by
  rcases u with _ | x <;> rcases v with _ | y <;> simp

theorem Device.window_eq {d : Device} {m : PortId} {c : PortConfig} {size : Nat × Nat}
    (hc : (d.port m).config = some c) (hs : d.ctl.output.size = some size) (zoom : Nat) (ex ey rx ry : Int) :
    d.window m zoom ex ey rx ry = WindowInputs.answer
      { wm := c.width, hm := c.height, wo := size.1, ho := size.2, base := (d.cal.get m).base,
        trim := (d.cal.get m).trim, cx := (d.cal.get m).cx, cy := (d.cal.get m).cy, zoom := zoom, ex := ex, ey := ey,
        rx := rx, ry := ry } := by
  simp only [Device.window, Device.windowInputs, Device.frameSize, Device.outputSize, Device.calOf, hc, hs,
    Option.getD_some]

/-! ### The compose deadline -/

/-- R143, R132: a device with the plan taken from the queue of d, with an outcome. -/
def Device.planTaken (d : Device) (plan : ViewPlan) (rest : List ViewPlan) (e : Device) (outcome : PendingOutcome) :
    Device :=
  Device.supersedeAll
    { e with
      planner := { d.planner with plans := rest }
      link := { d.link with pending := some { period := plan.period, plan := plan, outcome := outcome } }
      composePoint := plan.period + 1 }

theorem Device.composeDue_of_reached {d : Device} {plan : ViewPlan} {rest : List ViewPlan}
    (hp : d.planner.plans = plan :: rest) (streaming : d.mode = .streaming) (emptied : d.link.pending = none)
    (reached : d.composeTime plan.period ≤ d.now) : d.composeDue = some (plan, rest) := by
  simp only [Device.composeDue, hp]
  exact if_pos ⟨streaming, emptied, reached⟩

theorem Device.takePlan_of_busy {d : Device} {c : Composition} (hc : d.composing = some c) (plan : ViewPlan)
    (rest : List ViewPlan) : d.takePlan plan rest = d.planTaken plan rest d (.skipped .busy) := by
  have flying : (d.onPlanner fun p => { p with plans := rest }).composing = some c := hc
  rw [Device.takePlan, Device.composeFrame, flying]
  rfl

theorem Device.takePlan_of_no_frame {d : Device} {plan : ViewPlan} (idle : d.composing = none)
    (hs : d.select plan = none) (rest : List ViewPlan) :
    d.takePlan plan rest = d.planTaken plan rest d (.skipped .noFrame) := by
  have grounded : (d.onPlanner fun p => { p with plans := rest }).composing = none := idle
  have unused : (d.onPlanner fun p => { p with plans := rest }).select plan = none := hs
  rw [Device.takePlan, Device.composeFrame, grounded]
  dsimp only
  rw [unused]
  rfl

/-- R130: the holds of a composition change slots alone. -/
theorem Device.holdChosen_eq (d : Device) (o : Option (Slot × Bool)) :
    d.holdChosen o = { d with slots := (d.holdChosen o).slots } := by
  cases o <;> rfl

theorem Device.holdChosen_onPlanner (d : Device) (f : Planner → Planner) (o : Option (Slot × Bool)) :
    (d.onPlanner f).holdChosen o = (d.holdChosen o).onPlanner f := by
  cases o <;> rfl

theorem Device.takePlan_of_selection {d : Device} {plan : ViewPlan} {sel : Selection} {b : OutputBuffer}
    (idle : d.composing = none) (hs : d.select plan = some sel) (hb : d.bufferIn .free = some b)
    (rest : List ViewPlan) :
    d.takePlan plan rest = d.planTaken plan rest
      { (d.holdChosen sel.active).holdChosen sel.dest with
        composing := some
          { period := plan.period, buffer := b.id, activeSlot := sel.active.map fun x => x.1.id,
            destSlot := sel.dest.map fun y => y.1.id, alpha := sel.alpha }
        buffers := d.buffers.map fun x =>
          if x.id = b.id then
            { x with state := .composing, period := some plan.period, trailer := some (d.assembleTrailer plan sel) }
          else x }
      (.composing b.id) := by
  have grounded : (d.onPlanner fun p => { p with plans := rest }).composing = none := idle
  have chosen : (d.onPlanner fun p => { p with plans := rest }).select plan = some sel := hs
  have buffer : (d.onPlanner fun p => { p with plans := rest }).bufferIn .free = some b := hb
  rw [Device.takePlan, Device.composeFrame, grounded]
  dsimp only
  rw [chosen]
  dsimp only
  rw [buffer]
  dsimp only
  rw [Device.startComposition, Device.holdChosen_onPlanner, Device.holdChosen_onPlanner, Device.holdChosen_eq _ sel.dest,
    Device.holdChosen_eq d sel.active]
  rfl

/-- Settles O50: slot selection, the trailer, windows and the compose deadline. -/
theorem composeDeadlineTakesThePlan : Obligations.ComposeDeadlineTakesThePlan := by
  refine ⟨Device.select_cases, fun d plan sel centre ha hd used => ?_,
    fun d m c size zoom ex ey rx ry hc hs => Device.window_eq hc hs zoom ex ey rx ry, fun s => ⟨fun idle => ?_,
    fun plan rest hp streaming emptied reached => ?_⟩⟩
  · obtain rfl := Selection.centre_of ha hd used
    intro t shift wa wd usedA usedD
    have answers (w : WindowAnswer) : usedA w ∨ usedD w ↔
        d.activeAnswer plan sel shift = some w ∨ d.destAnswer plan sel shift = some w :=
      or_congr Device.activeAnswer_eq_some.symm Device.destAnswer_eq_some.symm
    have flag (f : WindowAnswer → Bool) :
        (((d.activeAnswer plan sel shift).map f).getD false || ((d.destAnswer plan sel shift).map f).getD false) = true ↔
          ∃ w, (usedA w ∨ usedD w) ∧ f w = true := by
      simp only [either_flag_iff, answers]
    refine ⟨rfl, rfl, rfl, rfl, rfl, rfl, rfl, rfl, rfl, fun b hb => ?_, fun hb => ?_, rfl, rfl, rfl, fun w => ?_,
      fun w => ?_, rfl, rfl, isLate_iff _, isLate_iff _, rfl, flag WindowAnswer.edge, flag WindowAnswer.floorFlag, rfl,
      rfl, rfl, rfl⟩
    · simp only [t, Device.assembleTrailer, hb, Option.map_some, Option.getD_some, and_self]
    · simp only [t, Device.assembleTrailer, hb, Option.map_none, Option.getD_none, and_self]
    · refine (Option.map_eq_some_iff (x := d.activeAnswer plan sel shift)).trans (exists_congr fun x => ?_)
      exact and_congr Device.activeAnswer_eq_some eq_comm
    · refine (Option.map_eq_some_iff (x := d.destAnswer plan sel shift)).trans (exists_congr fun x => ?_)
      exact and_congr Device.destAnswer_eq_some eq_comm
  · simp only [exec, execComposeDeadline, idle]
  · have due := Device.composeDue_of_reached hp streaming emptied reached
    have takes : exec .composeDeadline s = .next (s.withDevice (s.dev.takePlan plan rest)) := by
      simp only [exec, execComposeDeadline, due]
      rfl
    refine ⟨fun c hc => ?_, fun idle hs => ?_, fun sel b idle hs hb => ?_⟩
    · rw [takes, Device.takePlan_of_busy hc]
      rfl
    · rw [takes, Device.takePlan_of_no_frame idle hs]
      rfl
    · rw [takes, Device.takePlan_of_selection idle hs hb]
      rfl

end Sys2Proof.Machine
end

section
/-! PROOFS. The completion of a composition (R146, R147), for O51. -/

namespace Sys2Proof.Machine

open Sys2Proof

/-! ### Samples (R34, R35, R146) -/

theorem blendSample_spec {a e alpha : Nat} (ha : a ≤ 255) (he : e ≤ 255) (hal : alpha ≤ 256) :
    blendSample a e alpha = (a * (256 - alpha) + e * alpha + 128) / 256 ∧ blendSample a e alpha ≤ 255 ∧
      blendSample a e 0 = a ∧ blendSample a e 256 = e := by
  have first := Nat.mul_le_mul_right (256 - alpha) ha
  have second := Nat.mul_le_mul_right alpha he
  refine ⟨rfl, ?_, ?_, ?_⟩
  · unfold blendSample
    omega
  · unfold blendSample
    omega
  · unfold blendSample
    omega

/-- R34, R35: a plane rendered from its own plane of the stored frame, with everything halved for chroma. -/
theorem renderFrame_eq (mem : Memory) (slot : Nat) (size : Nat × Nat) (w : Window) (out : Nat × Nat) (pl : Plane)
    (i j : Nat) :
    let half := fun n : Nat => match pl with | .y => n | .u => n / 2 | .v => n / 2
    let first := fun w h : Nat => match pl with | .y => 0 | .u => w * h | .v => w * h + (w / 2) * (h / 2)
    renderFrame mem slot size w out pl i j =
      renderSample
        (fun col row => (mem.read (slotBase slot + first size.1 size.2 + row * half size.1 + col)).toNat)
        { x0 := half w.x0, y0 := half w.y0, w := half w.w, h := half w.h } (half out.1, half out.2) i j := by
  cases pl <;> rfl

/-! ### The order of a picture's bytes (8.1, 9.1) -/

/-- A grid of bytes, row by row. -/
def rowsOf (f : Nat → Nat → Byte) (width height : Nat) : List Byte :=
  (List.range height).flatMap fun j => (List.range width).map fun i => f i j

theorem rowsOf_succ (f : Nat → Nat → Byte) (width height : Nat) :
    rowsOf f width (height + 1) = rowsOf f width height ++ (List.range width).map fun i => f i height := by
  rw [rowsOf, rowsOf, List.range_succ, List.flatMap_append, List.flatMap_singleton]

theorem rowsOf_length (f : Nat → Nat → Byte) (width height : Nat) : (rowsOf f width height).length = height * width := by
  induction height with
  | zero => rw [Nat.zero_mul]; rfl
  | succ n ih => rw [rowsOf_succ, List.length_append, ih, List.length_map, List.length_range, Nat.succ_mul]

theorem rowsOf_getElem? {f : Nat → Nat → Byte} {width height i j : Nat} (hi : i < width) (hj : j < height) :
    (rowsOf f width height)[j * width + i]? = some (f i j) := by
  induction height with
  | zero => exact absurd hj (Nat.not_lt_zero j)
  | succ n ih =>
    rw [rowsOf_succ]
    obtain earlier | rfl := Nat.lt_succ_iff_lt_or_eq.mp hj
    · have place := gridIndex_lt hi earlier
      rw [List.getElem?_append_left (by rw [rowsOf_length, Nat.mul_comm n]; exact place)]
      exact ih earlier
    · rw [List.getElem?_append_right (by rw [rowsOf_length]; exact Nat.le_add_right _ _), rowsOf_length,
        Nat.add_sub_cancel_left, List.getElem?_map, List.getElem?_range hi, Option.map_some]

/-- The bytes of one plane of the composed picture. -/
def Device.composedPlane (d : Device) (mem : Memory) (c : Composition) (t : Trailer) (p : Plane) : List Byte :=
  rowsOf (fun i j => BitVec.ofNat 8 (d.composedSample mem c t p i j)) (p.scale d.outputSize.1) (p.scale d.outputSize.2)

theorem Device.composedBytes_eq (d : Device) (mem : Memory) (c : Composition) (t : Trailer) :
    d.composedBytes mem c t =
      d.composedPlane mem c t .y ++ (d.composedPlane mem c t .u ++ d.composedPlane mem c t .v) := by
  rw [Device.composedBytes, List.flatMap_cons, List.flatMap_cons, List.flatMap_singleton]
  rfl

theorem Device.composedBytes_length (d : Device) (mem : Memory) (c : Composition) (t : Trailer) :
    (d.composedBytes mem c t).length = pictureBytes d.outputSize.1 d.outputSize.2 := by
  rw [Device.composedBytes_eq, List.length_append, List.length_append, Device.composedPlane, Device.composedPlane,
    Device.composedPlane, rowsOf_length, rowsOf_length, rowsOf_length, pictureBytes, Plane.scale, Plane.scale,
    Plane.scale, Plane.scale, Plane.scale, Plane.scale, Nat.mul_comm d.outputSize.2,
    Nat.mul_comm (d.outputSize.2 / 2)]
  omega

/-- 9.1: where each sample of the composed picture lies. -/
theorem Device.composedBytes_getElem? {d : Device} {mem : Memory} {c : Composition} {t : Trailer} {pl : Plane}
    {i j : Nat} (hi : i < pl.scale d.outputSize.1) (hj : j < pl.scale d.outputSize.2) :
    (d.composedBytes mem c t)[pl.offset d.outputSize.1 d.outputSize.2 + (j * pl.scale d.outputSize.1 + i)]? =
      some (BitVec.ofNat 8 (d.composedSample mem c t pl i j)) := by
  have place := gridIndex_lt hi hj
  have plane : (d.composedPlane mem c t pl)[j * pl.scale d.outputSize.1 + i]? = _ := rowsOf_getElem? hi hj
  have lengths (p : Plane) : (d.composedPlane mem c t p).length = p.scale d.outputSize.1 * p.scale d.outputSize.2 := by
    rw [Device.composedPlane, rowsOf_length, Nat.mul_comm]
  have inside : j * pl.scale d.outputSize.1 + i < (d.composedPlane mem c t pl).length := by rw [lengths]; exact place
  rw [Device.composedBytes_eq, ← plane]
  cases pl
  · rw [Plane.offset, Nat.zero_add, List.getElem?_append_left inside]
  · have start : Plane.offset .u d.outputSize.1 d.outputSize.2 = (d.composedPlane mem c t .y).length := (lengths .y).symm
    rw [start, List.getElem?_append_right (Nat.le_add_right _ _), Nat.add_sub_cancel_left,
      List.getElem?_append_left inside]
  · have start : Plane.offset .v d.outputSize.1 d.outputSize.2 =
        (d.composedPlane mem c t .y).length + (d.composedPlane mem c t .u).length := by
      rw [lengths, lengths]
      rfl
    rw [start, Nat.add_assoc, List.getElem?_append_right (Nat.le_add_right _ _), Nat.add_sub_cancel_left,
      List.getElem?_append_right (Nat.le_add_right _ _), Nat.add_sub_cancel_left]

/-! ### The completion (R147) -/

theorem Device.releaseOption_rest (d : Device) (o : Option Nat) :
    (d.releaseOption o).link = d.link ∧ (d.releaseOption o).buffers = d.buffers := by
  cases o with
  | none => exact ⟨rfl, rfl⟩
  | some id => exact ⟨(d.releaseSlot_rest id).2.2.2.1, (d.releaseSlot_rest id).2.2.2.2.2⟩

/-- R147: the slots released and the buffer decided. -/
theorem Device.finishComposition_eq (d : Device) (c : Composition) :
    d.finishComposition c =
      { (d.releaseOption c.activeSlot).releaseOption c.destSlot with
        composing := none
        buffers := d.buffers.map fun x =>
          if x.id = c.buffer then (if d.pendingNames c.buffer then { x with state := .complete } else OutputBuffer.freed x.id)
          else x } := by
  obtain ⟨link, buffers⟩ := (d.releaseOption c.activeSlot).releaseOption_rest c.destSlot
  rw [(d.releaseOption_rest c.activeSlot).1] at link
  rw [(d.releaseOption_rest c.activeSlot).2] at buffers
  unfold Device.finishComposition
  generalize (d.releaseOption c.activeSlot).releaseOption c.destSlot = released at link buffers
  have names : released.pendingNames c.buffer = d.pendingNames c.buffer := by
    simp only [Device.pendingNames, link]
  dsimp only
  rw [names, ← buffers]
  cases d.pendingNames c.buffer <;> rfl

/-- R146: the memory of a composition that is completed. -/
theorem Device.composedMemory_read {d : Device} {mem : Memory} (wf : mem.wf = true) {c : Composition}
    {b : OutputBuffer} {t : Trailer} (hb : d.buffer? c.buffer = some b) (ht : b.trailer = some t) :
    (∀ pl i j, i < Plane.scale pl d.outputSize.1 → j < Plane.scale pl d.outputSize.2 →
      (d.composedMemory mem c).read (sampleAddress (bufferBase c.buffer) d.outputSize.1 d.outputSize.2 pl i j) =
        BitVec.ofNat 8 (d.composedSample mem c t pl i j)) ∧
      ∀ a, a < bufferBase c.buffer ∨ bufferBase c.buffer + pictureBytes d.outputSize.1 d.outputSize.2 ≤ a →
        (d.composedMemory mem c).read a = mem.read a := by
  have written : d.composedMemory mem c = mem.writeBytes (bufferBase c.buffer) (d.composedBytes mem c t) := by
    simp only [Device.composedMemory, hb, Option.bind_some, ht]
  rw [written]
  refine ⟨fun pl i j hi hj => ?_, fun a outside => Memory.read_writeBytes_of_outside wf fun i hi => ?_⟩
  · rw [sampleAddress, Nat.add_assoc, Nat.add_assoc]
    exact Memory.read_writeBytes_of_get wf (Device.composedBytes_getElem? hi hj) _
  · rw [Device.composedBytes_length] at hi
    omega

/-- Settles O51: a completed composition. -/
theorem compositionFillsItsBuffer : Obligations.CompositionFillsItsBuffer := by
  refine ⟨fun a e alpha ha he hal => blendSample_spec ha he hal, fun d mem c t pl i j => ?_, fun s =>
    ⟨fun idle => ?_, fun c hc outside => ?_, fun c b tr hc inside wf hb ht => ?_⟩⟩
  · intro half first rendered
    have frame (slot : Nat) (m : PortId) (w : Window) :
        renderFrame mem slot (d.frameSize m) w d.outputSize pl i j = rendered slot m w := renderFrame_eq ..
    refine ⟨fun x w a hx hw ha none => ?_, fun y w b hy hw hb none => ?_, fun x w a y w' b hx hw ha hy hw' hb => ?_⟩
    · simp only [Device.composedSample, hx, hw, ha, none, Option.map_some, Option.getD_some]
      exact frame ..
    · simp only [Device.composedSample, hy, hw, hb, none, Option.map_some, Option.getD_some]
      exact frame ..
    · simp only [Device.composedSample, hx, hw, ha, hy, hw', hb, Option.map_some, Option.getD_some]
      rw [blendSample, frame, frame]
  · simp only [exec, execCompositionComplete, idle]
  · simp only [exec, execCompositionComplete, hc, outside, Bool.false_eq_true, if_false]
  · intro wo ho at_ released named done
    obtain ⟨stored, left⟩ := Device.composedMemory_read wf hb ht
    have finished : s.dev.finishComposition c = done := s.dev.finishComposition_eq c
    refine ⟨s.dev.composedMemory s.mem c, ?_, stored, left⟩
    simp only [exec, execCompositionComplete, hc, inside, if_true, finished]

end Sys2Proof.Machine
end

section
/-! PROOFS. The output fence, emissions and what the transmit link sends (R149 to R151, R153, R156), for O52. -/

namespace Sys2Proof.Machine

open Sys2Proof

/-! ### OUTPUT_FENCE (R156) -/

theorem exec_outputFence {p : CmdPort} {s : State} (high : s.dev.ctl.resetLow = false)
    (streaming : s.dev.mode = .streaming) :
    (∀ k, s.dev.link.fence = some k → exec (.outputFence p) s = .next (s.refusedWith p .fenceBusy)) ∧
      ∀ x k, s.dev.link.fence = none → s.dev.ctl.session = some x → x.nextPlan = k + 1 →
        exec (.outputFence p) s = .next (s.answered p { status := .accepted, payload := bytesLE 4 k }
          { s.dev with link := { s.dev.link with fence := some k } }) := by
  have free : availability s.dev.mode .outputFence = none := by rw [streaming]; rfl
  refine ⟨fun k hk => ?_, fun x k none hx next => ?_⟩
  · refine exec_of_ownerRefuses (i := .outputFence p) rfl high free ?_
    rw [Device.outputFence, hk]
  · have newest : s.dev.nextPeriod - 1 = k := by
      rw [Device.nextPeriod, hx, Option.map_some, Option.getD_some, next, Nat.add_sub_cancel]
    rw [exec_of_taken (i := .outputFence p) rfl high free, Device.outputFence, none]
    dsimp only
    rw [newest]
    rfl

/-! ### The transmit link (R149) -/

theorem State.txSample_eq {s : State} {pl : Plane} {i j : Nat} :
    (s.dev.link.sending = none → s.txSample pl i j = none) ∧
      ∀ r, s.dev.link.sending = some r →
        (r.buffer = none → s.txSample pl i j = some 128) ∧
        ∀ b size, r.buffer = some b → s.dev.ctl.output.size = some size →
          s.txSample pl i j = some (Memory.read s.mem (sampleAddress (bufferBase b) size.1 size.2 pl i j)) := by
  refine ⟨fun none => ?_, fun r hr => ⟨fun grey => ?_, fun b size hb hs => ?_⟩⟩
  · rw [State.txSample, none]
  · simp only [State.txSample, hr, grey]
  · simp only [State.txSample, hr, hb, Device.outputSize, hs, Option.getD_some]

/-! ### Emission starts (Table 9-5) -/

theorem Device.emissionDue_of_due {d : Device} {r : PendingRecord} (hr : d.link.pending = some r)
    (streams : d.mode = .streaming ∨ d.mode = .stopping) (idle : d.link.sending = none)
    (reached : d.emissionTime r.period ≤ d.now) : d.emissionDue = some r := by
  simp only [Device.emissionDue, hr]
  exact if_pos ⟨streams, idle, reached⟩

theorem Device.emissionDue_of_idle {d : Device}
    (h : ∀ r, d.link.pending = some r → ¬ (d.mode = .streaming ∨ d.mode = .stopping) ∨ d.link.sending ≠ none ∨
      d.now < d.emissionTime r.period) : d.emissionDue = none := by
  rcases hr : d.link.pending with _ | r
  · simp only [Device.emissionDue, hr]
  · simp only [Device.emissionDue, hr]
    refine if_neg fun ⟨streams, idle, reached⟩ => ?_
    obtain stopped | sending | early := h r hr
    · exact stopped streams
    · exact sending idle
    · exact Nat.not_lt.mpr reached early

theorem Device.freshBuffer_of_complete {d : Device} {r : PendingRecord} {b : Nat} {x : OutputBuffer}
    (ho : r.outcome = .composing b) (hb : d.buffer? b = some x) (hx : x.state = .complete) :
    d.freshBuffer r = some x := by
  simp only [Device.freshBuffer, ho, hb, Option.filter_some, hx, decide_true, if_true]

theorem Device.freshBuffer_of_stale {d : Device} {r : PendingRecord}
    (stale : ∀ b x, r.outcome = .composing b → d.buffer? b = some x → x.state ≠ .complete) : d.freshBuffer r = none := by
  unfold Device.freshBuffer
  split
  · next b ho => exact Option.filter_eq_none_iff.mpr fun x hx complete => stale b x ho hx (of_decide_eq_true complete)
  · rfl

theorem Device.buffer?_id {d : Device} {b : Nat} {x : OutputBuffer} (h : d.buffer? b = some x) : x.id = b :=
  of_decide_eq_true (List.find?_some (p := fun y : OutputBuffer => decide (y.id = b)) h)

/-- R151: a repeated frame counted. -/
theorem Device.countNonFresh_eq (d : Device) (k : Nat) (cause : RepeatCause) :
    d.countNonFresh k cause =
      let run := min 255 (d.link.nonFresh + 1)
      let x := EventDetail.ofPeriod (some k) (some cause.number)
      let counted : Device := { d.raise .outputRepeat x with link := { d.link with nonFresh := run } }
      if d.ctl.handoff.freezeLimit ≤ run ∧ d.link.frozenReported = false then
        let frozen := counted.raise .outputFrozen x
        { frozen with link := { frozen.link with frozenReported := true } }
      else counted := rfl

/-! ### TX done (R150) -/

theorem Device.txDue_of_due {d : Device} {r : SendingRecord} (hr : d.link.sending = some r)
    (streams : d.mode = .streaming ∨ d.mode = .stopping) (reached : d.txDoneTime r.period ≤ d.now) :
    d.txDue = some r := by
  simp only [Device.txDue, hr]
  exact if_pos ⟨streams, reached⟩

theorem Device.txDue_of_idle {d : Device}
    (h : ∀ r, d.link.sending = some r → ¬ (d.mode = .streaming ∨ d.mode = .stopping) ∨ d.now < d.txDoneTime r.period) :
    d.txDue = none := by
  rcases hr : d.link.sending with _ | r
  · simp only [Device.txDue, hr]
  · simp only [Device.txDue, hr]
    refine if_neg fun ⟨streams, reached⟩ => ?_
    obtain stopped | early := h r hr
    · exact stopped streams
    · exact Nat.not_lt.mpr reached early

/-- R150: the buffers after the TX done of an emission. -/
def Device.buffersSettled (d : Device) (r : SendingRecord) : List OutputBuffer :=
  match r.kind, r.buffer with
  | .fresh, some b => d.buffers.map fun x =>
    if x.id = b then { x with state := .last } else if x.state = .last then OutputBuffer.freed x.id else x
  | .repeated, some b => d.buffers.map fun x => if x.id = b then { x with state := .last } else x
  | _, _ => d.buffers

theorem Device.settleBuffers_eq (d : Device) (r : SendingRecord) :
    d.settleBuffers r = { d with buffers := d.buffersSettled r } := by
  unfold Device.settleBuffers Device.buffersSettled
  rcases r.kind <;> rcases r.buffer with _ | b <;> rfl

/-- R150: an emission that ends, the fence of its period done. -/
theorem Device.endEmission_eq (d : Device) (r : SendingRecord) :
    d.endEmission r =
      let ended : Device := { d with buffers := d.buffersSettled r, link := { d.link with sending := none } }
      if d.link.fence = some r.period then
        Device.raise { ended with link := { ended.link with fence := none } } .fenceDone
          (EventDetail.ofPeriod (some r.period) (some 0))
      else ended := by
  unfold Device.endEmission
  rw [Device.settleBuffers_eq]
  dsimp only
  split <;> rfl

/-- Settles O52: the fence, emission starts, the transmit link and TX done. -/
theorem emissionsAndTheFence : Obligations.EmissionsAndTheFence := by
  refine ⟨fun p s high streaming => exec_outputFence high streaming, fun s pl i j => State.txSample_eq, fun s => ?_⟩
  intro start streams sent repeats
  refine ⟨fun idle => ?_, fun r hr streaming idle reached => ?_, fun idle => ?_, fun r hr streaming reached => ?_⟩
  · have none : s.dev.emissionDue = none := Device.emissionDue_of_idle idle
    simp only [exec, execEmissionStart, none]
  · have due : s.dev.emissionDue = some r := Device.emissionDue_of_due hr streaming idle reached
    have starts : exec .emissionStart s = .next (s.withDevice (s.dev.emit r)) := by
      simp only [exec, execEmissionStart, due]
      rfl
    intro link cause grey stale
    have number : r.outcome.cause.number = cause := by
      simp only [cause]
      cases r.outcome <;> rfl
    refine ⟨fun b x ho hb hx => ?_, fun x missed hx => ?_, fun missed none => ?_⟩
    · have fresh := Device.freshBuffer_of_complete ho hb hx
      have id := Device.buffer?_id hb
      subst id
      rw [starts, Device.emit, fresh]
      rfl
    · rw [starts, Device.emit, Device.freshBuffer_of_stale missed, hx]
      dsimp only
      rw [Device.countNonFresh_eq, number]
      rfl
    · rw [starts, Device.emit, Device.freshBuffer_of_stale missed, none]
      dsimp only
      rw [Device.countNonFresh_eq, number]
      rfl
  · have none : s.dev.txDue = none := Device.txDue_of_idle idle
    simp only [exec, execTxDone, none]
  · have due : s.dev.txDue = some r := Device.txDue_of_due hr streaming reached
    intro settled ended
    have ends : exec .txDone s = .next (s.withDevice ((s.dev.endEmission r).drainCheck)) := by
      simp only [exec, execTxDone, due]
      rfl
    rw [ends, Device.endEmission_eq]
    rfl

end Sys2Proof.Machine
end

section
/-! PROOFS. What the operations of the sequencer, the ports, the slots and the output side never do: none of them makes a
new frame or a new FSYNC, and none leaves the zoom codes' range. The few that take in a frame, an FSYNC or a zoom are
dealt with after them, for O58. -/

namespace Sys2Proof.Machine

open Sys2Proof

/-! ### The relation -/

/-- What an operation that takes in no frame makes of a slot `x`: nothing, a FREE slot, or the same frame in another
state. -/
def Slot.LeftOf (x y : Slot) : Prop :=
  y = x ∨ y = x.free ∨
    y.id = x.id ∧ y.owner = x.owner ∧ y.period = x.period ∧ x.state ≠ .free ∧ y.state ≠ .free

theorem Slot.LeftOf.refl (x : Slot) : x.LeftOf x := .inl rfl

theorem Slot.LeftOf.id_eq {x y : Slot} (h : x.LeftOf y) : y.id = x.id := by
  obtain rfl | rfl | ⟨hid, -⟩ := h
  exacts [rfl, rfl, hid]

theorem Slot.LeftOf.free {x y : Slot} (h : x.LeftOf y) : x.LeftOf y.free :=
  .inr (.inl (by rw [Slot.free, Slot.free, h.id_eq]))

/-- A slot that is still owned is owned by the same port, with the same content period. -/
theorem Slot.LeftOf.of_owned {x y : Slot} (h : x.LeftOf y) (ho : y.owner.isSome = true) :
    y.owner = x.owner ∧ y.period = x.period := by
  obtain rfl | rfl | ⟨-, ho, hp, -⟩ := h
  · exact ⟨rfl, rfl⟩
  · cases ho
  · exact ⟨ho, hp⟩

/-- A slot that is not FREE was not FREE, and holds the same frame. -/
theorem Slot.LeftOf.of_not_free {x y : Slot} (h : x.LeftOf y) (hy : y.state ≠ .free) :
    x.state ≠ .free ∧ y.owner = x.owner ∧ y.period = x.period := by
  obtain rfl | rfl | ⟨-, ho, hp, hx, -⟩ := h
  · exact ⟨hy, rfl, rfl⟩
  · exact absurd rfl hy
  · exact ⟨hx, ho, hp⟩

theorem Slot.LeftOf.trans {x y z : Slot} (h : x.LeftOf y) (g : y.LeftOf z) : x.LeftOf z := by
  obtain rfl | rfl | ⟨hid, ho, hp, hy, hz⟩ := g
  · exact h
  · exact h.free
  · obtain ⟨hx, ho', hp'⟩ := h.of_not_free hy
    exact .inr (.inr ⟨hid.trans h.id_eq, ho.trans ho', hp.trans hp', hx, hz⟩)

/-- The conditions of `Device.FramesCoherent` that do not depend on whether the mode is STREAMING or STOPPING. -/
structure Device.FramesSound (d : Device) : Prop where
  quotas   : (PortId.all.map d.quota).sum ≤ 12 ∧ ∀ m, d.ownedCount m ≤ d.quota m
  owned    : ∀ x ∈ d.slots, x.state ≠ .free → x.owner.isSome = true ∧ ∃ k, x.period = some k ∧ k < d.nextPeriod
  outside  : d.mode.inSession = false → ∀ x ∈ d.slots, x.state = .free
  filling  : ∀ m f, (d.port m).filling = some f → ∃ x ∈ d.slots, x.id = f.slot ∧ x.state = .filling ∧ x.owner = some m
  distinct : ∀ x ∈ d.slots, ∀ y ∈ d.slots, x.owner.isSome = true → x.owner = y.owner → x.period = y.period → x = y
  awaited  : ∀ m, ((d.port m).awaited.map Expectation.period).Pairwise (· < ·) ∧
    ∀ e ∈ (d.port m).awaited, e.period < d.nextPeriod ∧
      ∀ x ∈ d.slots, x.owner = some m → ∀ k, x.period = some k → k < e.period

theorem Device.framesCoherent_iff (d : Device) :
    d.FramesCoherent ↔ d.FramesSound ∧
      (d.mode ≠ .streaming → ∀ m, (d.port m).awaited = [] ∧ (d.port m).filling = none) :=
  ⟨fun h => ⟨⟨h.quotas, h.owned, h.outside, h.filling, h.distinct, h.awaited⟩, h.idle⟩,
    fun ⟨h, idle⟩ => ⟨h.quotas, h.owned, h.outside, h.filling, h.distinct, h.awaited, idle⟩⟩

/-- What makes `e` of `d` takes in no frame, no FSYNC and no zoom out of range: each slot is left or emptied, the FSYNCs
awaited are some of those awaited before, and the conditions on frames and on zooms are kept. -/
structure Device.AddsNothing (d e : Device) : Prop where
  ctl      : e.ctl = d.ctl
  coherent : d.slotsCoherent → e.slotsCoherent
  slots    : d.slotsCoherent → d.FramesSound → List.Forall₂ Slot.LeftOf d.slots e.slots
  awaited  : ∀ m, (e.port m).awaited.Sublist (d.port m).awaited
  unfilled : ∀ m, (d.port m).filling = none → (e.port m).filling = none
  frames   : d.slotsCoherent → d.FramesSound → e.FramesSound
  zooms    : d.ZoomsInRange → e.ZoomsInRange

theorem Device.AddsNothing.mode {d e : Device} (h : d.AddsNothing e) : e.mode = d.mode := by
  rw [Device.mode, h.ctl, Device.mode]

theorem Slot.leftOf_forall₂_refl (l : List Slot) : List.Forall₂ Slot.LeftOf l l :=
  List.forall₂_same.mpr fun x _ => Slot.LeftOf.refl x

theorem Slot.leftOf_forall₂_trans {l l' l'' : List Slot} (h : List.Forall₂ Slot.LeftOf l l')
    (g : List.Forall₂ Slot.LeftOf l' l'') : List.Forall₂ Slot.LeftOf l l'' := by
  induction h generalizing l'' with
  | nil => exact g
  | cons hx _ ih =>
    cases g with
    | cons hy hl => exact .cons (hx.trans hy) (ih hl)

theorem Device.AddsNothing.refl (d : Device) : d.AddsNothing d :=
  ⟨rfl, id, fun _ _ => Slot.leftOf_forall₂_refl _, fun _ => List.Sublist.refl _, fun _ => id, fun _ => id, id⟩

theorem Device.AddsNothing.trans {d e f : Device} (h : d.AddsNothing e) (g : e.AddsNothing f) : d.AddsNothing f where
  ctl := g.ctl.trans h.ctl
  coherent hd := g.coherent (h.coherent hd)
  slots hd hf := Slot.leftOf_forall₂_trans (h.slots hd hf) (g.slots (h.coherent hd) (h.frames hd hf))
  awaited m := (g.awaited m).trans (h.awaited m)
  unfilled m := g.unfilled m ∘ h.unfilled m
  frames hd hf := g.frames (h.coherent hd) (h.frames hd hf)
  zooms := g.zooms ∘ h.zooms

theorem Device.AddsNothing.foldl {α : Type} (op : Device → α → Device) (h : ∀ (d : Device) (a : α), d.AddsNothing (op d a))
    (l : List α) (d : Device) : d.AddsNothing (l.foldl op d) := by
  induction l generalizing d with
  | nil => exact .refl d
  | cons a rest ih => exact (h d a).trans (ih _)

/-! ### The conditions on frames -/

/-- A slot of `e` comes from one of `d`. -/
theorem Slot.exists_leftOf {l l' : List Slot} (h : List.Forall₂ Slot.LeftOf l l') {y : Slot} (hy : y ∈ l') :
    ∃ x ∈ l, x.LeftOf y := by
  induction h with
  | nil => cases hy
  | cons hx _ ih =>
    rcases List.mem_cons.mp hy with rfl | hy
    · exact ⟨_, List.mem_cons_self, hx⟩
    · obtain ⟨x, hxl, hleft⟩ := ih hy
      exact ⟨x, List.mem_cons_of_mem _ hxl, hleft⟩

theorem Slot.owned_length_le {l l' : List Slot} (h : List.Forall₂ Slot.LeftOf l l') (m : PortId) :
    (l'.filter fun x => x.ownedBy m).length ≤ (l.filter fun x => x.ownedBy m).length := by
  induction h with
  | nil => exact le_refl _
  | @cons x y l l' hx _ ih =>
    have owned : y.ownedBy m = true → x.ownedBy m = true := by
      simp only [Slot.ownedBy_iff]
      intro hy
      rw [← (hx.of_owned (by rw [hy]; rfl)).1]
      exact hy
    rw [List.filter_cons, List.filter_cons]
    split
    · next hy => rw [if_pos (owned hy), List.length_cons, List.length_cons]; omega
    · split
      · rw [List.length_cons]; omega
      · exact ih

/-- Two slots of one number are the same. -/
theorem Device.slotsCoherent.slot_ext {d : Device} (h : d.slotsCoherent) {x y : Slot} (hx : x ∈ d.slots) (hy : y ∈ d.slots)
    (hid : x.id = y.id) : x = y := by
  have nodup : (d.slots.map Slot.id).Nodup := by rw [h.1]; exact List.nodup_range
  exact List.inj_on_of_nodup_map nodup hx hy hid

theorem Device.quota_eq {d e : Device} (config : ∀ m, (e.port m).config = (d.port m).config) : e.quota = d.quota := by
  funext m
  rw [Device.quota, Device.quota, config]

theorem Device.inSession_eq {d e : Device} (ctl : e.ctl = d.ctl) : e.mode.inSession = d.mode.inSession := by
  rw [Device.mode, ctl, Device.mode]

theorem Device.nextPeriod_eq {d e : Device} (ctl : e.ctl = d.ctl) : e.nextPeriod = d.nextPeriod := by
  rw [Device.nextPeriod, ctl, Device.nextPeriod]

/-- The conditions on frames are kept where no frame and no FSYNC is taken in and each fill still has its slot. -/
theorem Device.FramesSound.of_leftOf {d e : Device} (he : e.slotsCoherent)
    (session : e.mode.inSession = d.mode.inSession) (next : e.nextPeriod = d.nextPeriod)
    (config : ∀ m, (e.port m).config = (d.port m).config) (slots : List.Forall₂ Slot.LeftOf d.slots e.slots)
    (awaited : ∀ m, (e.port m).awaited.Sublist (d.port m).awaited)
    (filling : ∀ m f, (e.port m).filling = some f →
      ∃ x ∈ e.slots, x.id = f.slot ∧ x.state = .filling ∧ x.owner = some m)
    (h : d.FramesSound) : e.FramesSound := by
  refine ⟨⟨?_, fun m => ?_⟩, fun y hy hs => ?_, fun hm y hy => ?_, filling,
    fun y hy z hz ho heq hp => ?_, fun m => ⟨?_, fun x hx => ⟨?_, fun y hy ho k hk => ?_⟩⟩⟩
  · rw [Device.quota_eq config]; exact h.quotas.1
  · rw [Device.quota_eq config]
    exact (Slot.owned_length_le slots m).trans (h.quotas.2 m)
  · obtain ⟨x, hx, left⟩ := Slot.exists_leftOf slots hy
    obtain ⟨hxs, ho, hp⟩ := left.of_not_free hs
    rw [ho, hp, next]
    exact h.owned x hx hxs
  · obtain ⟨x, hx, left⟩ := Slot.exists_leftOf slots hy
    by_contra hs
    exact (left.of_not_free hs).1 (h.outside (session ▸ hm) x hx)
  · obtain ⟨x, hx, left⟩ := Slot.exists_leftOf slots hy
    obtain ⟨x', hx', left'⟩ := Slot.exists_leftOf slots hz
    obtain ⟨hyo, hyp⟩ := left.of_owned ho
    obtain ⟨hzo, hzp⟩ := left'.of_owned (heq ▸ ho)
    have same : x = x' := h.distinct x hx x' hx' (hyo ▸ ho) (by rw [← hyo, heq, hzo]) (by rw [← hyp, hp, hzp])
    exact he.slot_ext hy hz (by rw [left.id_eq, left'.id_eq, same])
  · exact ((h.awaited m).1).sublist ((awaited m).map _)
  · rw [next]
    exact ((h.awaited m).2 x ((awaited m).subset hx)).1
  · obtain ⟨x', hx', left⟩ := Slot.exists_leftOf slots hy
    obtain ⟨hyo, hyp⟩ := left.of_owned (by rw [ho]; rfl)
    exact ((h.awaited m).2 x ((awaited m).subset hx)).2 x' hx' (hyo ▸ ho) k (hyp ▸ hk)

/-- The conditions on zooms are about the View Planner's zooms and the calibration records alone. -/
theorem Device.ZoomsInRange.of_eq {d e : Device} (h : d.ZoomsInRange) (cal : e.cal = d.cal)
    (nominal : e.planner.nominal = d.planner.nominal) (applied : e.planner.applied = d.planner.applied)
    (queue : e.planner.queue = d.planner.queue) (ramp : e.planner.ramp = d.planner.ramp) : e.ZoomsInRange where
  nominal := by rw [nominal]; exact h.nominal
  applied := by rw [applied]; exact h.applied
  queue := by rw [queue]; exact h.queue
  ramp := by rw [ramp]; exact h.ramp
  records m := by rw [Device.calOf, cal]; exact h.records m

/-- R58: the applied zoom of any state is a zoom code. -/
theorem Device.ZoomsInRange.appliedIn {d : Device} (h : d.ZoomsInRange) (st : HandoffState) :
    50 ≤ d.appliedIn st ∧ d.appliedIn st ≤ 10000 := by
  have nominal := h.nominal
  have lower : ∀ m, (d.calOf m).lower ≤ 6000 := fun m => Calibration.lower_le (h.records m).1 (h.records m).2
  unfold Device.appliedIn
  split
  · exact nominal
  · exact nominal
  · next a _ =>
    have ha := lower a
    refine ⟨by omega, max_le (by omega) ?_⟩
    split
    · exact (lower _).trans (by omega)
    · omega
  · next a _ _ _ =>
    have ha := lower a
    omega

/-! ### Operations that leave the slots and the ports -/

/-- An operation that leaves the slots, the ports and the Mode Controller. -/
theorem Device.AddsNothing.of_planner {d e : Device} (ctl : e.ctl = d.ctl) (slots : e.slots = d.slots)
    (ports : e.ports = d.ports) (zooms : d.ZoomsInRange → e.ZoomsInRange) : d.AddsNothing e where
  ctl := ctl
  coherent h := by rw [Device.slotsCoherent, slots]; exact h
  slots _ _ := by rw [slots]; exact Slot.leftOf_forall₂_refl _
  awaited m := by rw [Device.port, ports]; exact List.Sublist.refl _
  unfilled m := by rw [Device.port, Device.port, ports]; exact id
  frames hd h := by
    have he : e.slotsCoherent := by rw [Device.slotsCoherent, slots]; exact hd
    refine h.of_leftOf he (Device.inSession_eq ctl) (Device.nextPeriod_eq ctl)
      (fun m => by rw [Device.port, ports]; rfl) (by rw [slots]; exact Slot.leftOf_forall₂_refl _)
      (fun m => by rw [Device.port, ports]; exact List.Sublist.refl _) fun m f hf => ?_
    rw [Device.port, ports] at hf
    rw [slots]
    exact h.filling m f hf
  zooms := zooms

/-- An operation that leaves the slots, the ports, the Mode Controller, the calibration records and the zooms. -/
theorem Device.AddsNothing.of_rest {d e : Device} (ctl : e.ctl = d.ctl) (slots : e.slots = d.slots)
    (ports : e.ports = d.ports) (cal : e.cal = d.cal) (nominal : e.planner.nominal = d.planner.nominal)
    (applied : e.planner.applied = d.planner.applied) (queue : e.planner.queue = d.planner.queue)
    (ramp : e.planner.ramp = d.planner.ramp) : d.AddsNothing e :=
  .of_planner ctl slots ports fun h => h.of_eq cal nominal applied queue ramp

theorem Device.raise_addsNothing (d : Device) (k : EventKind) (x : EventDetail) : d.AddsNothing (d.raise k x) :=
  .of_rest rfl rfl rfl rfl rfl rfl rfl rfl

/-- An update of the View Planner that leaves its zooms. -/
theorem Device.onPlanner_addsNothing (d : Device) (f : Planner → Planner)
    (nominal : (f d.planner).nominal = d.planner.nominal) (applied : (f d.planner).applied = d.planner.applied)
    (queue : (f d.planner).queue = d.planner.queue) (ramp : (f d.planner).ramp = d.planner.ramp) :
    d.AddsNothing (d.onPlanner f) :=
  .of_rest rfl rfl rfl rfl nominal applied queue ramp

theorem Device.recomputeApplied_addsNothing (d : Device) : d.AddsNothing d.recomputeApplied := by
  unfold Device.recomputeApplied
  split
  · exact .refl d
  · next st _ =>
    exact .of_planner rfl rfl rfl fun h => ⟨h.nominal, h.appliedIn st, h.queue, h.ramp, h.records⟩

/-! ### Operations on ports and slots -/

/-- An operation that leaves the View Planner and the calibration records, takes in no frame and no FSYNC, and leaves each
fill its slot. -/
theorem Device.AddsNothing.of_frames {d e : Device} (ctl : e.ctl = d.ctl) (cal : e.cal = d.cal)
    (planner : e.planner = d.planner) (config : ∀ m, (e.port m).config = (d.port m).config)
    (coherent : d.slotsCoherent → e.slotsCoherent)
    (slots : d.slotsCoherent → d.FramesSound → List.Forall₂ Slot.LeftOf d.slots e.slots)
    (awaited : ∀ m, (e.port m).awaited.Sublist (d.port m).awaited)
    (unfilled : ∀ m, (d.port m).filling = none → (e.port m).filling = none)
    (filling : d.slotsCoherent → d.FramesSound → ∀ m f, (e.port m).filling = some f →
      ∃ x ∈ e.slots, x.id = f.slot ∧ x.state = .filling ∧ x.owner = some m) :
    d.AddsNothing e where
  ctl := ctl
  coherent := coherent
  slots := slots
  awaited := awaited
  unfilled := unfilled
  frames hd h := h.of_leftOf (coherent hd) (Device.inSession_eq ctl) (Device.nextPeriod_eq ctl) config (slots hd h)
    awaited (filling hd h)
  zooms h := h.of_eq cal (by rw [planner]) (by rw [planner]) (by rw [planner]) (by rw [planner])

/-- An update of one port that leaves its configuration and takes in no FSYNC and no frame. -/
theorem Device.onPort_addsNothing (d : Device) (m : PortId) (f : ModulePort → ModulePort)
    (config : (f (d.port m)).config = (d.port m).config)
    (awaited : (f (d.port m)).awaited.Sublist (d.port m).awaited)
    (filling : ∀ g, (f (d.port m)).filling = some g → ∃ g', (d.port m).filling = some g' ∧ g.slot = g'.slot) :
    d.AddsNothing (d.onPort m f) := by
  refine .of_frames rfl rfl rfl (fun n => ?_) id (fun _ _ => Slot.leftOf_forall₂_refl _) (fun n => ?_) (fun n hn => ?_)
    fun hd h n g hg => ?_
  · rw [Device.onPort_port_eq]
    split
    · next hn => rw [hn, config]
    · rfl
  · rw [Device.onPort_port_eq]
    split
    · next hn => rw [hn]; exact awaited
    · exact List.Sublist.refl _
  · rw [Device.onPort_port_eq]
    split
    · next hm =>
      cases hf : (f (d.port m)).filling with
      | none => rfl
      | some g =>
        obtain ⟨g', hg', -⟩ := filling g hf
        rw [hm, hg'] at hn
        cases hn
    · exact hn
  · rw [Device.onPort_port_eq] at hg
    split at hg
    · next hn =>
      obtain ⟨g', hg', hs⟩ := filling g hg
      rw [hs, hn]
      exact h.filling m g' hg'
    · exact h.filling n g hg

/-- An update of one port that leaves its configuration, what it awaits and what it fills. -/
theorem Device.onPort_addsNothing_plain (d : Device) (m : PortId) (f : ModulePort → ModulePort)
    (config : ∀ q, (f q).config = q.config := by intro q; rfl)
    (expectations : ∀ q, (f q).expectations = q.expectations := by intro q; rfl)
    (pending : ∀ q, (f q).pendingFsync = q.pendingFsync := by intro q; rfl)
    (filling : ∀ q, (f q).filling = q.filling := by intro q; rfl) : d.AddsNothing (d.onPort m f) := by
  refine Device.onPort_addsNothing d m f (config _) ?_ fun g hg => ⟨g, by rw [← hg, filling], rfl⟩
  rw [ModulePort.awaited, expectations, pending]
  exact List.Sublist.refl _

/-- Slots changed one by one: each left, emptied, or holding its frame in another state, and those being filled left. -/
theorem Device.mapSlots_addsNothing (d : Device) (f : Slot → Slot)
    (coherent : d.slotsCoherent → Device.slotsCoherent { d with slots := d.slots.map f })
    (left : d.slotsCoherent → ∀ x ∈ d.slots, x.LeftOf (f x))
    (filling : d.slotsCoherent → ∀ x ∈ d.slots, x.state = .filling → f x = x) :
    d.AddsNothing { d with slots := d.slots.map f } := by
  refine .of_frames rfl rfl rfl (fun _ => rfl) coherent (fun hd _ => ?_) (fun _ => List.Sublist.refl _) (fun _ => id)
    fun hd h m g hg => ?_
  · exact List.forall₂_map_right_iff.mpr (List.forall₂_same.mpr (left hd))
  · obtain ⟨x, hx, hid, hs, ho⟩ := h.filling m g hg
    exact ⟨x, List.mem_map.mpr ⟨x, hx, filling hd x hx hs⟩, hid, hs, ho⟩

/-- READY slots that meet a test freed. -/
theorem Device.freeReady_addsNothing (d : Device) (t : Slot → Bool) (ready : ∀ x, t x = true → x.state = .ready) :
    d.AddsNothing { d with slots := d.slots.map fun x => if t x = true then x.free else x } := by
  refine Device.mapSlots_addsNothing d _ (Device.freeWhere_keeps d t).slots (fun _ x _ => ?_) fun _ x _ hs => ?_
  · split
    · exact .inr (.inl rfl)
    · exact .refl x
  · split
    · next ht => rw [ready x ht] at hs; cases hs
    · rfl

theorem Device.supersede_addsNothing (d : Device) (m : PortId) : d.AddsNothing (d.supersede m) := by
  unfold Device.supersede
  split
  · exact .refl d
  · refine Device.freeReady_addsNothing d (fun s => s.ownedBy m && decide (s.state = .ready) && _) fun x hx => ?_
    simp only [Bool.and_eq_true, decide_eq_true_eq] at hx
    exact hx.1.2

theorem Device.supersedeAll_addsNothing (d : Device) : d.AddsNothing d.supersedeAll :=
  .foldl _ Device.supersede_addsNothing _ d

/-- R135: a port's unheld slots freed, with the frame it was filling abandoned. -/
theorem Device.freeUnheld_addsNothing (d : Device) (m : PortId) : d.AddsNothing (d.freeUnheld m) := by
  refine .of_frames rfl rfl rfl (fun n => ?_) (Device.freeUnheld_keeps d m).slots (fun _ _ => ?_) (fun n => ?_)
    (fun n hn => ?_) fun hd h n g hg => ?_
  · rw [Device.freeUnheld, Device.onPort_port_eq]
    split
    · next hn => rw [hn]; rfl
    · rfl
  · refine List.forall₂_map_right_iff.mpr (List.forall₂_same.mpr fun x _ => ?_)
    split
    · exact .inr (.inl rfl)
    · exact .refl x
  · rw [Device.freeUnheld, Device.onPort_port_eq]
    split
    · next hn => rw [hn]; exact List.Sublist.refl _
    · exact List.Sublist.refl _
  · rw [Device.freeUnheld, Device.onPort_port_eq]
    split
    · rfl
    · exact hn
  · rw [Device.freeUnheld, Device.onPort_port_eq] at hg
    split at hg
    · cases hg
    · next hn =>
      obtain ⟨x, hx, hid, hs, ho⟩ := h.filling n g hg
      have other : x.ownedBy m = false := by
        rw [Slot.ownedBy, ho]
        exact decide_eq_false fun he => hn (Option.some.inj he)
      exact ⟨x, List.mem_map.mpr ⟨x, hx, by rw [other]; rfl⟩, hid, hs, ho⟩

/-- R130: a hold on a slot that holds a complete frame. -/
theorem Device.holdSlot_addsNothing (d : Device) {y : Slot} (hy : d.slotsCoherent → ∃ x ∈ d.slots, x.id = y.id ∧
    x.complete = true) : d.AddsNothing (d.holdSlot y.id) := by
  refine Device.mapSlots_addsNothing d _ (Device.holdSlot_keeps d y.id).slots (fun hd x hx => ?_) fun hd x hx hs => ?_
  · split
    · next hid =>
      obtain ⟨z, hz, hzid, hc⟩ := hy hd
      have same := hd.slot_ext hx hz (hid.trans hzid.symm)
      refine .inr (.inr ⟨rfl, rfl, rfl, ?_, by simp⟩)
      intro hfree
      rw [same] at hfree
      simp [Slot.complete, hfree] at hc
    · exact .refl x
  · split
    · next hid =>
      obtain ⟨z, hz, hzid, hc⟩ := hy hd
      have same := hd.slot_ext hx hz (hid.trans hzid.symm)
      rw [same] at hs
      simp [Slot.complete, hs] at hc
    · rfl

/-- R131: a release. -/
theorem Device.releaseSlot_addsNothing (d : Device) (id : Nat) : d.AddsNothing (d.releaseSlot id) := by
  cases hs : d.slot? id with
  | none =>
    rw [show d.releaseSlot id = d by simp only [Device.releaseSlot, hs]]
    exact .refl d
  | some s =>
    by_cases hheld : s.state = .held
    case neg =>
      rw [show d.releaseSlot id = d by simp only [Device.releaseSlot, hs, hheld, ne_eq, not_false_eq_true, if_true]]
      exact .refl d
    case pos =>
      have named : d.slotsCoherent → ∀ x ∈ d.slots, x.id = id → x.state = .held := fun hd x hx hid => by
        rw [(Device.slot?_unique hd hs).2.2 x hx hid]
        exact hheld
      have changed : ∀ f : Slot → Slot, (d.slotsCoherent → (d.onSlot id f).slotsCoherent) →
          (∀ x : Slot, x.state = .held → x.LeftOf (f x)) → d.AddsNothing (d.onSlot id f) := by
        intro f hc hl
        refine Device.mapSlots_addsNothing d _ hc (fun hd x hx => ?_) fun hd x hx hfill => ?_
        · split
          · next hid => exact hl x (named hd x hx hid)
          · exact .refl x
        · split
          · next hid => rw [named hd x hx hid] at hfill; cases hfill
          · rfl
      have freed := changed Slot.free (Device.freeSlot_keeps d id).slots fun x _ => .inr (.inl rfl)
      have keeps := (Device.releaseSlot_keeps d id).slots
      unfold Device.releaseSlot at keeps ⊢
      rw [hs] at keeps ⊢
      dsimp only at keeps ⊢
      rw [if_neg (by simp [hheld])] at keeps ⊢
      split
      · next huse =>
        rw [if_pos huse] at keeps
        exact changed _ keeps fun x hx => .inr (.inr ⟨rfl, rfl, rfl, by simp [hx], by simp [hx]⟩)
      · split
        · exact freed
        · split
          · exact freed
          · refine (changed (fun x => { x with state := .ready, useCount := 0 }) ?_ fun x hx =>
              .inr (.inr ⟨rfl, rfl, rfl, by simp [hx], by simp⟩)).trans (Device.supersede_addsNothing _ _)
            exact (Device.onSlot_keeps d id (fun x => { x with state := .ready, useCount := 0 }) (fun _ => rfl)
              fun _ _ => rfl).slots

theorem Device.releaseOption_addsNothing (d : Device) (o : Option Nat) : d.AddsNothing (d.releaseOption o) := by
  cases o with
  | none => exact .refl d
  | some id => exact Device.releaseSlot_addsNothing d id

/-! ### The sequencer -/

theorem Device.setRole_addsNothing (d : Device) (m : PortId) (r : Role) : d.AddsNothing (d.setRole m r) := by
  have role := Device.onPlanner_addsNothing d (fun p => { p with roles := p.roles.set m r }) rfl rfl rfl rfl
  unfold Device.setRole
  dsimp only
  split
  · exact role.trans (Device.freeUnheld_addsNothing _ m)
  · exact role

theorem Device.endHandoff_addsNothing (d : Device) : d.AddsNothing d.endHandoff :=
  Device.onPlanner_addsNothing d _ rfl rfl rfl rfl

theorem Device.setBar_addsNothing (d : Device) (m : PortId) (n : Nat) : d.AddsNothing (d.setBar m n) :=
  Device.onPlanner_addsNothing d _ rfl rfl rfl rfl

theorem Device.changeActive_addsNothing (d : Device) (old : Option PortId) (new : PortId) (reason : ChangeReason)
    (k : Nat) : d.AddsNothing (d.changeActive old new reason k) := by
  have rested : d.AddsNothing (match old with | some a => d.setRole a (d.restRole a) | none => d) := by
    cases old with
    | none => exact .refl d
    | some a => exact Device.setRole_addsNothing d a _
  exact rested.trans ((Device.setRole_addsNothing _ new .active).trans
    ((Device.endHandoff_addsNothing _).trans
      ((Device.onPlanner_addsNothing _ _ rfl rfl rfl rfl).trans (Device.raise_addsNothing _ _ _))))

theorem Device.abandon_addsNothing (d : Device) (reason : AbandonReason) (k : Nat) :
    d.AddsNothing (d.abandon reason k) := by
  unfold Device.abandon
  split
  · exact .refl d
  · next c _ =>
    refine (Device.setRole_addsNothing d c.dest (d.restRole c.dest)).trans ((Device.endHandoff_addsNothing _).trans ?_)
    dsimp only
    split
    · exact (Device.setBar_addsNothing _ _ _).trans (Device.raise_addsNothing _ _ _)
    · exact Device.raise_addsNothing _ _ _

theorem Device.abort_addsNothing (d : Device) (m : PortId) (r : LossReport) : d.AddsNothing (d.abort m r) :=
  (Device.setRole_addsNothing d m _).trans ((Device.setBar_addsNothing _ _ _).trans
    ((Device.endHandoff_addsNothing _).trans
      ((Device.raise_addsNothing _ _ _).trans (Device.recomputeApplied_addsNothing _))))

theorem Device.loseActive_addsNothing (d : Device) (m : PortId) (r : LossReport) : d.AddsNothing (d.loseActive m r) := by
  unfold Device.loseActive
  split
  · exact (Device.changeActive_addsNothing _ _ _ _ _).trans (Device.recomputeApplied_addsNothing _)
  · split
    · exact Device.recomputeApplied_addsNothing d
    · exact (Device.setRole_addsNothing d m .cold).trans ((Device.onPlanner_addsNothing _ _ rfl rfl rfl rfl).trans
        ((Device.raise_addsNothing _ _ _).trans (Device.recomputeApplied_addsNothing _)))

theorem Device.reportLoss_addsNothing (d : Device) (m : PortId) (r : LossReport) : d.AddsNothing (d.reportLoss m r) := by
  unfold Device.reportLoss
  split
  · exact .refl d
  · split
    · exact (Device.changeActive_addsNothing _ _ _ _ _).trans (Device.recomputeApplied_addsNothing _)
    · exact Device.loseActive_addsNothing d m r
    · exact Device.abort_addsNothing d m r
    · split
      · exact .refl d
      · exact (Device.setRole_addsNothing d m .cold).trans (Device.recomputeApplied_addsNothing _)

theorem Device.reportLinked_addsNothing (d : Device) (m : PortId) : d.AddsNothing (d.reportLinked m) := by
  unfold Device.reportLinked
  split
  · exact (Device.setRole_addsNothing d m _).trans (Device.recomputeApplied_addsNothing _)
  · exact .refl d

/-! ### The probe -/

theorem Device.slotOf_complete {d : Device} {m : PortId} {k : Nat} {s : Slot} (h : d.slotOf m k = some s) :
    s.complete = true := by
  have hs := List.find?_some h
  simp only [Bool.and_eq_true] at hs
  exact hs.1.2

theorem Device.pairQuery_complete {d : Device} {a t : PortId} {x y : Slot} (h : d.pairQuery a t = some (x, y)) :
    x.complete = true ∧ y.complete = true := by
  unfold Device.pairQuery at h
  split at h
  · cases h
  · split at h
    · next hx hy =>
      cases h
      exact ⟨Device.slotOf_complete hx, Device.slotOf_complete hy⟩
    · cases h

theorem Device.probePair_complete {d : Device} {a t : PortId} {x y : Slot} (h : d.probePair = some (a, t, x, y)) :
    x.complete = true ∧ y.complete = true := by
  unfold Device.probePair at h
  split at h
  · split at h
    · obtain ⟨q, hq, he⟩ := Option.map_eq_some_iff.mp h
      cases he
      exact Device.pairQuery_complete hq
    · cases h
  · cases h

/-- A slot of a number and state still complete after a hold on another or on itself. -/
theorem Device.holdSlot_complete {d : Device} {id : Nat} {y : Slot} (hy : y ∈ d.slots) (hc : y.complete = true) :
    ∃ x ∈ (d.holdSlot id).slots, x.id = y.id ∧ x.complete = true := by
  refine ⟨_, List.mem_map.mpr ⟨y, hy, rfl⟩, ?_⟩
  split
  · exact ⟨rfl, rfl⟩
  · exact ⟨rfl, hc⟩

theorem Device.startProbe_addsNothing (d : Device) (a t : PortId) {x y : Slot} (zoom : Nat) (hx : x ∈ d.slots)
    (hy : y ∈ d.slots) (hxc : x.complete = true) (hyc : y.complete = true) :
    d.AddsNothing (d.startProbe a t x y zoom) :=
  (Device.holdSlot_addsNothing d fun _ => ⟨x, hx, rfl, hxc⟩).trans
    ((Device.holdSlot_addsNothing _ fun _ => Device.holdSlot_complete hy hyc).trans
      (.of_rest rfl rfl rfl rfl rfl rfl rfl rfl))

theorem Device.probeCheck_addsNothing (d : Device) (zoom : Nat) : d.AddsNothing (d.probeCheck zoom) := by
  unfold Device.probeCheck
  split
  · next h =>
    exact Device.startProbe_addsNothing d _ _ _ (Device.probePair_mem h).1 (Device.probePair_mem h).2
      (Device.probePair_complete h).1 (Device.probePair_complete h).2
  · exact .refl d

theorem Device.frameReady_addsNothing (d : Device) (m : PortId) : d.AddsNothing (d.frameReady m) := by
  unfold Device.frameReady
  split
  · exact Device.probeCheck_addsNothing d _
  · exact .refl d

theorem Device.takeOutcome_addsNothing (d : Device) (m : PortId) (o : FrameOutcome) :
    d.AddsNothing (d.takeOutcome m o) := by
  have context : ∀ c : HandoffContext, d.AddsNothing (d.onPlanner fun p => { p with context := some c }) := fun _ =>
    Device.onPlanner_addsNothing d _ rfl rfl rfl rfl
  unfold Device.takeOutcome
  split
  · split
    · exact .refl d
    · split
      · split
        · exact context _
        · exact (Device.onPlanner_addsNothing d _ rfl rfl rfl rfl).trans (Device.probeCheck_addsNothing _ _)
      · exact context _
      · exact context _
      · exact context _
      · exact .refl d
  · exact .refl d

theorem Device.takeProbe_addsNothing (d : Device) (q : ProbeMeasure) : d.AddsNothing (d.takeProbe q) := by
  unfold Device.takeProbe
  split
  · exact .refl d
  · exact Device.onPlanner_addsNothing d _ rfl rfl rfl rfl

/-- R89: the completion of a probe. -/
theorem Device.completeProbe_addsNothing (d : Device) (c : ProbeContext) (q : ProbeMeasure) :
    d.AddsNothing (d.completeProbe c q) := by
  refine (Device.releaseSlot_addsNothing d c.activeSlot).trans ((Device.releaseSlot_addsNothing _ c.destSlot).trans ?_)
  refine .trans (e := if Device.takesProbe _ c then Device.takeProbe _ q else _) ?_
    (.of_rest rfl rfl rfl rfl rfl rfl rfl rfl)
  split
  · exact Device.takeProbe_addsNothing _ q
  · exact .refl _

/-! ### The ports -/

/-- R107: a port taken down awaits nothing and fills nothing. -/
theorem Device.takeDown_addsNothing (d : Device) (m : PortId) (st : PortState) : d.AddsNothing (d.takeDown m st) :=
  (Device.onPort_addsNothing d m
      (fun q => { q with state := st, lanes := none, pendingFsync := none, expectations := [] }) rfl
      (List.nil_sublist _) fun g hg => ⟨g, hg, rfl⟩).trans
    (Device.freeUnheld_addsNothing _ m)

theorem Device.reportDownIf_addsNothing (d : Device) (m : PortId) (b : Bool) (cause : DownCause) :
    d.AddsNothing (d.reportDownIf m b cause) := by
  unfold Device.reportDownIf
  split
  · exact Device.reportLoss_addsNothing d m _
  · exact .refl d

theorem Device.bringUp_addsNothing (d : Device) (m : PortId) (a : Allowance) (cause : DownCause) :
    d.AddsNothing (d.bringUp m a cause) :=
  (Device.takeDown_addsNothing d m .resetting).trans ((Device.onPort_addsNothing_plain _ m _).trans
    (Device.reportDownIf_addsNothing _ m _ _))

theorem Device.disable_addsNothing (d : Device) (m : PortId) : d.AddsNothing (d.disable m) :=
  (Device.takeDown_addsNothing d m .off).trans (Device.reportDownIf_addsNothing _ m _ _)

theorem Device.endSeekWindow_addsNothing (d : Device) (m : PortId) : d.AddsNothing (d.endSeekWindow m) := by
  unfold Device.endSeekWindow
  split
  · exact Device.onPort_addsNothing_plain d m _
  · exact (Device.takeDown_addsNothing d m .dead).trans (Device.raise_addsNothing _ _ _)

theorem Device.frameFault_addsNothing (d : Device) (m : PortId) (k : Option Nat) (r : FaultReason) :
    d.AddsNothing (d.frameFault m k r) :=
  (Device.raise_addsNothing d _ _).trans (Device.onPort_addsNothing_plain _ m _)

theorem Device.seekHeader_addsNothing (d : Device) (m : PortId) (h : FrameHeader) : d.AddsNothing (d.seekHeader m h) := by
  unfold Device.seekHeader
  split
  · exact .refl d
  · split
    · exact .refl d
    · split
      · exact Device.frameFault_addsNothing d m _ _
      · exact (Device.onPort_addsNothing_plain d m _).trans ((Device.raise_addsNothing _ _ _).trans
          (Device.reportLinked_addsNothing _ m))

theorem Device.badPeriod_addsNothing (d : Device) (m : PortId) (k : Nat) (why : BadReason) :
    d.AddsNothing (d.badPeriod m k why) := by
  have counted := Device.onPort_addsNothing_plain d m
    (fun q => { q with badPeriods := min 15 (q.badPeriods + 1), goodRun := 0 })
  unfold Device.badPeriod
  dsimp only
  split_ifs
  · exact counted.trans ((Device.takeOutcome_addsNothing _ m _).trans ((Device.onPort_addsNothing_plain _ m _).trans
      ((Device.raise_addsNothing _ _ _).trans (Device.reportLoss_addsNothing _ m _))))
  · exact counted.trans (Device.takeOutcome_addsNothing _ m _)

theorem Device.countMissed_addsNothing (d : Device) (m : PortId) (k : Nat) : d.AddsNothing (d.countMissed m k) :=
  (Device.onPort_addsNothing_plain d m _).trans (Device.badPeriod_addsNothing _ m k _)

theorem Device.goodPeriod_addsNothing (d : Device) (m : PortId) (k : Nat) : d.AddsNothing (d.goodPeriod m k) := by
  have counted := Device.onPort_addsNothing_plain d m
    (fun q => { q with badPeriods := 0, goodRun := min 2 (q.goodRun + 1) })
  unfold Device.goodPeriod
  dsimp only
  split
  · split
    · exact (counted.trans (Device.onPort_addsNothing_plain _ m _)).trans (Device.raise_addsNothing _ _ _)
    · exact counted.trans (Device.onPort_addsNothing_plain _ m _)
  · exact counted

theorem Device.advanceStall_addsNothing (d : Device) (m : PortId) : d.AddsNothing (d.advanceStall m) := by
  unfold Device.advanceStall
  split
  · exact Device.bringUp_addsNothing d m _ _
  · split
    · exact Device.onPort_addsNothing_plain d m _
    · exact .refl d

/-- R115: the pending FSYNC moves to the tail of the queue, or is counted as missed. -/
theorem Device.issueFsync_addsNothing (d : Device) (m : PortId) {e : Expectation}
    (he : (d.port m).pendingFsync = some e) : d.AddsNothing (d.issueFsync m e) := by
  have taken : d.AddsNothing (d.onPort m fun q => { q with pendingFsync := none }) :=
    Device.onPort_addsNothing d m _ rfl (by simp [ModulePort.awaited]) fun g hg => ⟨g, hg, rfl⟩
  unfold Device.issueFsync
  dsimp only
  split
  · split
    · exact taken.trans ((Device.onPort_addsNothing_plain _ m _).trans (Device.countMissed_addsNothing _ m _))
    · rw [Device.onPort_onPort, Device.onPort_onPort]
      refine Device.onPort_addsNothing d m _ rfl ?_ fun g hg => ⟨g, hg, rfl⟩
      simp [ModulePort.awaited, he]
  · exact taken.trans (Device.countMissed_addsNothing _ m _)

theorem Device.passDeadline_addsNothing (d : Device) (m : PortId) {e : Expectation} {rest : List Expectation}
    (h : (d.port m).expectations = e :: rest) : d.AddsNothing (d.passDeadline m e rest) :=
  (Device.onPort_addsNothing d m _ rfl (by simp [ModulePort.awaited, h]) fun g hg => ⟨g, hg, rfl⟩).trans
    (Device.countMissed_addsNothing _ m _)

/-! ### Frames that end -/

/-- The frame a port fills is in a slot of its own. -/
theorem Device.FramesSound.filling_ne {d : Device} (hd : d.slotsCoherent) (h : d.FramesSound) {m n : PortId} {f g : Fill}
    (hf : (d.port m).filling = some f) (hg : (d.port n).filling = some g) (hn : n ≠ m) : g.slot ≠ f.slot := by
  obtain ⟨x, hx, hxid, -, hxo⟩ := h.filling m f hf
  obtain ⟨y, hy, hyid, -, hyo⟩ := h.filling n g hg
  intro he
  have same := hd.slot_ext hx hy (by rw [hxid, hyid, he])
  rw [same, hyo] at hxo
  exact hn (Option.some.inj hxo)

/-- The end of a fill: the port fills nothing, and its slot is emptied or holds the frame in another state. -/
theorem Device.endFill_addsNothing (d : Device) {m : PortId} {f : Fill} (hf : (d.port m).filling = some f)
    (g : Slot → Slot) (hid : ∀ x, (g x).id = x.id) (hc : ∀ x, x.coherent → (g x).coherent)
    (left : ∀ x : Slot, x.state = .filling → x.LeftOf (g x)) :
    d.AddsNothing ((d.onSlot f.slot g).onPort m fun q => { q with filling := none }) := by
  refine .of_frames rfl rfl rfl (fun n => ?_) (Device.onSlot_keeps d f.slot g hid hc).slots (fun hd h => ?_) (fun n => ?_)
    (fun n hn => ?_) fun hd h n x hx => ?_
  · rw [Device.onPort_port_eq]
    split
    · next hn => rw [hn]; rfl
    · rfl
  · refine List.forall₂_map_right_iff.mpr (List.forall₂_same.mpr fun x hx => ?_)
    split
    · next hxid =>
      obtain ⟨y, hy, hyid, hys, -⟩ := h.filling m f hf
      rw [hd.slot_ext hx hy (hxid.trans hyid.symm)]
      exact left y hys
    · exact .refl x
  · rw [Device.onPort_port_eq]
    split
    · next hn => rw [hn]; exact List.Sublist.refl _
    · exact List.Sublist.refl _
  · rw [Device.onPort_port_eq]
    split
    · rfl
    · exact hn
  · rw [Device.onPort_port_eq] at hx
    split at hx
    · cases hx
    · next hn =>
      obtain ⟨y, hy, hyid, hys, hyo⟩ := h.filling n x hx
      refine ⟨y, List.mem_map.mpr ⟨y, hy, if_neg ?_⟩, hyid, hys, hyo⟩
      rw [hyid]
      exact h.filling_ne hd hf hx hn

theorem Device.faultFill_addsNothing (d : Device) {m : PortId} {f : Fill} (hf : (d.port m).filling = some f)
    (r : FaultReason) : d.AddsNothing (d.faultFill m f r) := by
  have freed := Device.endFill_addsNothing d hf Slot.free (fun _ => rfl) (fun x _ => Slot.free_coherent x)
    fun _ _ => .inr (.inl rfl)
  unfold Device.faultFill
  exact (freed.trans (Device.frameFault_addsNothing _ m _ r)).trans (Device.badPeriod_addsNothing _ m _ _)

/-- R117: the frame end of a good frame. -/
theorem Device.completeFrame_addsNothing (d : Device) {m : PortId} {f : Fill} (hf : (d.port m).filling = some f)
    (s : Slot) : d.AddsNothing (d.completeFrame m f s) := by
  have ended := Device.endFill_addsNothing d hf (fun x => { x with state := .ready, useCount := 0 }) (fun _ => rfl)
    (fun _ _ => rfl) fun x hx => .inr (.inr ⟨rfl, rfl, rfl, by simp [hx], by simp⟩)
  have heard := ended.trans ((Device.supersede_addsNothing _ m).trans ((Device.frameReady_addsNothing _ m).trans
    ((Device.onPort_addsNothing_plain _ m fun q => { q with newestExposure := s.exposure, good := bump q.good }).trans
      ((Device.goodPeriod_addsNothing _ m (s.period.getD 0)).trans
        (Device.takeOutcome_addsNothing _ m (.good s.settled))))))
  unfold Device.completeFrame
  dsimp only
  split
  · refine heard.trans (Device.mapSlots_addsNothing _ _ (Device.onSlot_keeps _ f.slot
      (fun x => if x.state = .ready then x.free else x) (fun x => ?_) fun x hx => ?_).slots (fun _ x _ => ?_)
        fun _ x _ hs => ?_)
    · split <;> rfl
    · split
      · exact Slot.free_coherent x
      · exact hx
    · dsimp only
      split_ifs
      · exact .inr (.inl rfl)
      · exact .refl x
      · exact .refl x
    · simp [hs]
  · exact heard

theorem Device.takeFrameEnd_addsNothing (d : Device) (m : PortId) : d.AddsNothing (d.takeFrameEnd m) := by
  unfold Device.takeFrameEnd
  split
  · exact .refl d
  · next f hf =>
    split
    · exact .refl d
    · split
      · exact Device.faultFill_addsNothing d hf _
      · exact Device.completeFrame_addsNothing d hf _

/-! ### The output side -/

theorem Device.pair_complete {d : Device} {m : PortId} {k : Nat} {x : Slot × Bool} (h : d.pair m k = some x) :
    x.1.complete = true := by
  unfold Device.pair at h
  split at h
  · next hs => cases h; exact Device.slotOf_complete hs
  · split at h
    · cases h
    · obtain ⟨y, hy, rfl⟩ := Option.map_eq_some_iff.mp h
      exact Device.slotOf_complete hy

theorem Device.select_complete {d : Device} {plan : ViewPlan} {s : Selection} (h : d.select plan = some s) :
    (∀ x, s.active = some x → x.1.complete = true) ∧ ∀ y, s.dest = some y → y.1.complete = true := by
  unfold Device.select at h
  split at h
  · cases h
  · split at h
    · obtain ⟨x, hx, rfl⟩ := Option.map_eq_some_iff.mp h
      exact ⟨fun _ hy => by cases hy; exact Device.pair_complete hx, fun _ hy => by cases hy⟩
    · split at h
      · next hx hy =>
        cases h
        exact ⟨fun _ hz => (by cases hz; exact Device.pair_complete hx),
          fun _ hz => (by cases hz; exact Device.pair_complete hy)⟩
      · next hx _ =>
        cases h
        exact ⟨fun _ hz => (by cases hz; exact Device.pair_complete hx), fun _ hz => (by cases hz)⟩
      · next hy =>
        cases h
        exact ⟨fun _ hz => (by cases hz), fun _ hz => (by cases hz; exact Device.pair_complete hy)⟩
      · cases h

theorem Device.startComposition_addsNothing (d : Device) {plan : ViewPlan} {s : Selection} (b : OutputBuffer)
    (hs : d.select plan = some s) : d.AddsNothing (d.startComposition plan s b) := by
  obtain ⟨activeMem, destMem⟩ := Device.select_mem hs
  obtain ⟨activeComplete, destComplete⟩ := Device.select_complete hs
  have first : d.AddsNothing (d.holdChosen s.active) := by
    cases ha : s.active with
    | none => exact .refl d
    | some x => exact Device.holdSlot_addsNothing d fun _ => ⟨x.1, activeMem x ha, rfl, activeComplete x ha⟩
  have second : (d.holdChosen s.active).AddsNothing ((d.holdChosen s.active).holdChosen s.dest) := by
    cases hy : s.dest with
    | none => exact .refl _
    | some y =>
      refine Device.holdSlot_addsNothing _ fun _ => ?_
      cases s.active with
      | none => exact ⟨y.1, destMem y hy, rfl, destComplete y hy⟩
      | some x => exact Device.holdSlot_complete (destMem y hy) (destComplete y hy)
  exact first.trans (second.trans (.of_rest rfl rfl rfl rfl rfl rfl rfl rfl))

theorem Device.takePlan_addsNothing (d : Device) (plan : ViewPlan) (rest : List ViewPlan) :
    d.AddsNothing (d.takePlan plan rest) := by
  have taken := Device.onPlanner_addsNothing d (fun p => { p with plans := rest }) rfl rfl rfl rfl
  have pending : ∀ (e : Device) (o : PendingOutcome), e.AddsNothing (e.setPending plan o) := fun _ _ =>
    .of_rest rfl rfl rfl rfl rfl rfl rfl rfl
  have composed : ∀ e : Device, e.AddsNothing (e.composeFrame plan) := by
    intro e
    unfold Device.composeFrame
    split
    · exact pending _ _
    · split
      · exact pending _ _
      · next hs =>
        split
        · exact pending _ _
        · exact Device.startComposition_addsNothing e _ hs
  have advanced : ∀ (e : Device) (k : Nat), e.AddsNothing (e.advanceComposePoint k) := by
    intro e k
    have pointed : e.AddsNothing { e with composePoint := k + 1 } := .of_rest rfl rfl rfl rfl rfl rfl rfl rfl
    exact pointed.trans (Device.supersedeAll_addsNothing _)
  unfold Device.takePlan
  exact (taken.trans (composed _)).trans (advanced _ _)

theorem Device.finishComposition_addsNothing (d : Device) (c : Composition) : d.AddsNothing (d.finishComposition c) := by
  refine (Device.releaseOption_addsNothing d c.activeSlot).trans
    ((Device.releaseOption_addsNothing _ c.destSlot).trans ?_)
  unfold Device.finishComposition
  dsimp only
  split <;> exact .of_rest rfl rfl rfl rfl rfl rfl rfl rfl

/-- An operation of the output side that leaves the slots too. -/
theorem Device.OutputKeeps.addsNothing {d e : Device} (h : d.OutputKeeps e) (slots : e.slots = d.slots) :
    d.AddsNothing e :=
  .of_rest h.ctl slots h.ports h.cal (by rw [h.planner]) (by rw [h.planner]) (by rw [h.planner]) (by rw [h.planner])

theorem Device.countNonFresh_slots (d : Device) (k : Nat) (cause : RepeatCause) :
    (d.countNonFresh k cause).slots = d.slots := by
  unfold Device.countNonFresh
  dsimp only
  split <;> rfl

theorem Device.emit_addsNothing (d : Device) (r : PendingRecord) : d.AddsNothing (d.emit r) := by
  refine (Device.emit_keeps d r).addsNothing ?_
  unfold Device.emit
  split
  · rfl
  · split
    · rw [Device.countNonFresh_slots]; rfl
    · rw [Device.countNonFresh_slots]; rfl

theorem Device.endEmission_addsNothing (d : Device) (r : SendingRecord) : d.AddsNothing (d.endEmission r) := by
  refine (Device.endEmission_keeps d r).addsNothing ?_
  have settled : (d.settleBuffers r).slots = d.slots := by
    unfold Device.settleBuffers
    split <;> rfl
  unfold Device.endEmission
  dsimp only
  split <;> exact settled

end Sys2Proof.Machine
end

section
/-! PROOFS. The two operations that take in frames and FSYNCs, a frame start that is given a slot (R116, R128) and the
planning (R114): what they make of the ports and the slots, and that the conditions on frames are kept, for O58. -/

namespace Sys2Proof.Machine

open Sys2Proof

/-! ### A frame start that is given a slot -/

/-- What a frame start on port m that consumes record a and is given slot x makes of the device. -/
structure Device.GivesSlot (d e : Device) (m : PortId) (a : Expectation) (x : Slot) : Prop where
  below   : d.ownedCount m < d.quota m
  free    : x ∈ d.slots ∧ x.state = .free
  ctl     : e.ctl = d.ctl
  cal     : e.cal = d.cal
  planner : e.planner = d.planner
  slots   : ∃ g : Slot → Slot, e.slots = (d.slots.map fun y => if y.id = x.id then g y else y) ∧
    ∀ y, (g y).id = y.id ∧ (g y).state = .filling ∧ (g y).owner = some m ∧ (g y).period = some a.period
  awaited : (d.port m).awaited = a :: (e.port m).awaited
  config  : ∀ n, (e.port n).config = (d.port n).config
  filling : ∃ f, (e.port m).filling = some f ∧ f.slot = x.id
  others  : ∀ n, n ≠ m → e.port n = d.port n

/-- R116 order 6: the port is below its quota and a slot is FREE, or it is given none and no frame is taken in. -/
theorem Device.requestSlot_takes (d : Device) (m : PortId) (h : FrameHeader) (a : Expectation) :
    d.AddsNothing (d.requestSlot m h a) ∨ d.ownedCount m < d.quota m ∧ ∃ x, d.lowestFree = some x := by
  have dropped : d.AddsNothing (((d.raise .frameDropped (EventDetail.ofPort m (some a.period) none)).onPort m fun q =>
      { q with dropped := bump q.dropped }).takeOutcome m .dropped) :=
    ((Device.raise_addsNothing d _ _).trans (Device.onPort_addsNothing_plain _ m _)).trans
      (Device.takeOutcome_addsNothing _ m _)
  by_cases below : d.ownedCount m < d.quota m
  · cases hx : d.lowestFree with
    | some x => exact .inr ⟨below, x, rfl⟩
    | none =>
      refine .inl ?_
      simp only [Device.requestSlot, Device.allocate, below, hx, if_true]
      exact dropped
  · refine .inl ?_
    simp only [Device.requestSlot, Device.allocate, below, if_false]
    exact dropped

/-- R116: a frame start that meets its record takes in no frame, or is given a FREE slot. -/
theorem Device.matchFrame_takes (d : Device) (m : PortId) (h : FrameHeader) :
    d.AddsNothing (d.matchFrame m h) ∨ ∃ a x, d.GivesSlot (d.matchFrame m h) m a x := by
  have headed (e : Device) : e.AddsNothing (e.takeHeader m h) := Device.onPort_addsNothing_plain e m _
  unfold Device.matchFrame
  dsimp only
  split
  · refine .inl ?_
    split_ifs
    · exact Device.onPort_addsNothing_plain d m _
    · exact .refl d
    · exact (headed d).trans (Device.frameFault_addsNothing _ m _ _)
    · exact Device.frameFault_addsNothing d m _ _
  · next a rest ha =>
    have consumed : d.AddsNothing (d.onPort m fun q => { q with expectations := rest }) :=
      Device.onPort_addsNothing d m _ rfl (by simp [ModulePort.awaited, ha]) fun g hg => ⟨g, hg, rfl⟩
    split_ifs
    · exact .inl ((consumed.trans (Device.frameFault_addsNothing _ m _ _)).trans (Device.badPeriod_addsNothing _ m _ _))
    · exact .inl (((consumed.trans (headed _)).trans (Device.frameFault_addsNothing _ m _ _)).trans
        (Device.badPeriod_addsNothing _ m _ _))
    · have quota : Device.quota ((d.onPort m fun q => { q with expectations := rest }).takeHeader m h) m = d.quota m := by
        rw [Device.takeHeader, Device.onPort_quota _ m rfl, Device.onPort_quota _ m rfl]
      obtain none | ⟨below, x, hx⟩ :=
        ((d.onPort m fun q => { q with expectations := rest }).takeHeader m h).requestSlot_takes m h a
      · exact .inl ((consumed.trans (headed _)).trans none)
      · refine .inr ⟨a, x, ?_⟩
        rw [Device.requestSlot_of_free h a below hx]
        rw [quota] at below
        refine ⟨below, ⟨List.mem_of_find?_eq_some hx, by simpa using List.find?_some hx⟩, rfl, rfl, rfl,
          ⟨_, rfl, fun y => ⟨rfl, rfl, rfl, rfl⟩⟩, ?_, fun n => ?_,
          ⟨{ slot := x.id, start := d.now, lines := 0 }, (congrArg ModulePort.filling (Device.onPort_port _ m _) :), rfl⟩,
          fun n hn => ?_⟩
        · simp [Device.takeHeader, ModulePort.awaited, ha]
        · by_cases hn : n = m
          · simp only [Device.takeHeader, Device.onPort_port_eq, Device.onSlot_port, hn, if_true]
          · simp only [Device.takeHeader, Device.onPort_port_eq, Device.onSlot_port, hn, if_false]
        · simp only [Device.takeHeader, Device.onPort_port_eq, Device.onSlot_port, if_neg hn]

/-! ### The slots a port owns -/

theorem countP_le_add {α : Type} {p q r : α → Bool} (l : List α) (h : ∀ x ∈ l, p x = true → q x = true ∨ r x = true) :
    l.countP p ≤ l.countP q + l.countP r := by
  induction l with
  | nil => exact Nat.zero_le _
  | cons x l ih =>
    have tail := ih fun y hy => h y (List.mem_cons_of_mem x hy)
    have head := h x List.mem_cons_self
    simp only [List.countP_cons]
    by_cases hp : p x = true
    · obtain hq | hr := head hp
      · simp only [hp, hq, if_true]; omega
      · simp only [hp, hr, if_true]; omega
    · simp only [hp, Bool.false_eq_true, if_false]
      omega

theorem Device.ownedCount_eq (d : Device) (m : PortId) : d.ownedCount m = d.slots.countP fun x => x.ownedBy m := by
  rw [Device.ownedCount, List.countP_eq_length_filter]

/-- R128: the port that is given a slot owns one more, every other port no more than before. -/
theorem Device.GivesSlot.ownedCount_le {d e : Device} {m : PortId} {a : Expectation} {x : Slot}
    (h : d.GivesSlot e m a x) (hd : d.slotsCoherent) (n : PortId) :
    e.ownedCount n ≤ d.ownedCount n + if n = m then 1 else 0 := by
  obtain ⟨g, slots, given⟩ := h.slots
  have single : (d.slots.countP fun y => decide (y.id = x.id)) ≤ 1 := by
    have nodup : (d.slots.map Slot.id).Nodup := by rw [hd.1]; exact List.nodup_range
    have count := List.nodup_iff_count_le_one.mp nodup x.id
    rw [List.count, List.countP_map] at count
    refine le_of_eq_of_le (List.countP_congr fun y _ => ?_) count
    simp
  rw [Device.ownedCount_eq, Device.ownedCount_eq, slots, List.countP_map]
  split
  · refine (countP_le_add d.slots (q := fun y => y.ownedBy n) (r := fun y => decide (y.id = x.id)) ?_).trans (by omega)
    intro y _ hy
    by_cases hid : y.id = x.id
    · exact .inr (decide_eq_true hid)
    · exact .inl (by simpa [hid] using hy)
  · next hn =>
    refine List.countP_mono_left fun y _ hy => ?_
    by_cases hid : y.id = x.id
    · simp only [Function.comp, hid, if_true, Slot.ownedBy_iff, (given y).2.2.1, Option.some.injEq] at hy
      exact absurd hy.symm hn
    · simpa [hid] using hy

/-- R116, R119, R128: the conditions on frames are kept where a frame is given a slot in STREAMING. -/
theorem Device.GivesSlot.framesSound {d e : Device} {m : PortId} {a : Expectation} {x : Slot}
    (h : d.GivesSlot e m a x) (hd : d.slotsCoherent) (streaming : d.mode = .streaming)
    (sound : d.FramesSound) : e.FramesSound := by
  obtain ⟨g, slots, given⟩ := h.slots
  have kinds {y : Slot} (hy : y ∈ e.slots) : (y ∈ d.slots ∧ y.id ≠ x.id) ∨
      y.id = x.id ∧ y.state = .filling ∧ y.owner = some m ∧ y.period = some a.period := by
    rw [slots] at hy
    obtain ⟨z, hz, rfl⟩ := List.mem_map.mp hy
    split
    · next hid => exact .inr ⟨(given z).1.trans hid, (given z).2⟩
    · next hid => exact .inl ⟨hz, hid⟩
  have next := Device.nextPeriod_eq h.ctl
  have ha : a ∈ (d.port m).awaited := by rw [h.awaited]; exact List.mem_cons_self
  obtain ⟨belowNext, aboveOwn⟩ := (sound.awaited m).2 a ha
  have rising := (sound.awaited m).1
  rw [h.awaited, List.map_cons, List.pairwise_cons] at rising
  have above : ∀ b ∈ (e.port m).awaited, a.period < b.period := fun b hb => rising.1 _ (List.mem_map_of_mem hb)
  refine ⟨⟨?_, fun n => ?_⟩, fun y hy hs => ?_, fun hm => ?_, fun n f hf => ?_, fun y hy z hz ho heq hp => ?_,
    fun n => ⟨?_, fun b hb => ⟨?_, fun y hy ho k hk => ?_⟩⟩⟩
  · rw [Device.quota_eq h.config]
    exact sound.quotas.1
  · rw [Device.quota_eq h.config]
    have count := h.ownedCount_le hd n
    have before := sound.quotas.2 n
    have below := h.below
    split at count
    · next hn => rw [hn] at count ⊢; omega
    · omega
  · obtain ⟨hy, -⟩ | ⟨-, -, ho, hp⟩ := kinds hy
    · rw [next]; exact sound.owned y hy hs
    · exact ⟨by rw [ho]; rfl, _, hp, by rw [next]; exact belowNext⟩
  · rw [Device.mode, h.ctl] at hm
    rw [Device.mode] at streaming
    rw [streaming] at hm
    cases hm
  · by_cases hn : n = m
    · obtain ⟨f', hf', hid⟩ := h.filling
      rw [hn] at hf ⊢
      rw [hf] at hf'
      cases hf'
      refine ⟨g x, ?_, ?_, (given x).2.1, (given x).2.2.1⟩
      · rw [slots]
        exact List.mem_map.mpr ⟨x, h.free.1, if_pos rfl⟩
      · rw [(given x).1, hid]
    · rw [h.others n hn] at hf
      obtain ⟨y, hy, hid, hs, ho⟩ := sound.filling n f hf
      refine ⟨y, ?_, hid, hs, ho⟩
      rw [slots]
      refine List.mem_map.mpr ⟨y, hy, if_neg fun same => ?_⟩
      rw [hd.slot_ext hy h.free.1 same, h.free.2] at hs
      cases hs
  · obtain ⟨hyd, hyid⟩ | ⟨hyid, -, hyo, hyp⟩ := kinds hy
    · obtain ⟨hzd, -⟩ | ⟨-, -, hzo, hzp⟩ := kinds hz
      · exact sound.distinct y hyd z hzd ho heq hp
      · exact absurd (aboveOwn y hyd (heq.trans hzo) _ (hp.trans hzp)) (lt_irrefl _)
    · obtain ⟨hzd, -⟩ | ⟨hzid, -⟩ := kinds hz
      · exact absurd (aboveOwn z hzd (heq.symm.trans hyo) _ (hp.symm.trans hyp)) (lt_irrefl _)
      · have nodup : (e.slots.map Slot.id).Nodup := by
          have ids : e.slots.map Slot.id = d.slots.map Slot.id := by
            rw [slots, List.map_map]
            refine List.map_congr_left fun w _ => ?_
            simp only [Function.comp]
            split
            · exact (given w).1
            · rfl
          rw [ids, hd.1]
          exact List.nodup_range
        exact List.inj_on_of_nodup_map nodup hy hz (hyid.trans hzid.symm)
  · by_cases hn : n = m
    · rw [hn]; exact rising.2
    · rw [h.others n hn]; exact (sound.awaited n).1
  · rw [next]
    by_cases hn : n = m
    · rw [hn] at hb
      exact ((sound.awaited m).2 b (by rw [h.awaited]; exact List.mem_cons_of_mem a hb)).1
    · rw [h.others n hn] at hb
      exact ((sound.awaited n).2 b hb).1
  · obtain ⟨hyd, -⟩ | ⟨-, -, hyo, hyp⟩ := kinds hy
    · by_cases hn : n = m
      · rw [hn] at hb ho
        exact ((sound.awaited m).2 b (by rw [h.awaited]; exact List.mem_cons_of_mem a hb)).2 y hyd ho k hk
      · rw [h.others n hn] at hb
        exact ((sound.awaited n).2 b hb).2 y hyd ho k hk
    · obtain rfl : m = n := Option.some.inj (hyo.symm.trans ho)
      obtain rfl : a.period = k := Option.some.inj (hyp.symm.trans hk)
      exact above b hb

theorem Device.GivesSlot.zooms {d e : Device} {m : PortId} {a : Expectation} {x : Slot} (h : d.GivesSlot e m a x)
    (z : d.ZoomsInRange) : e.ZoomsInRange :=
  z.of_eq h.cal (by rw [h.planner]) (by rw [h.planner]) (by rw [h.planner]) (by rw [h.planner])

/-- R116: a frame start keeps the conditions on frames and on zooms. -/
theorem Device.takeFrameStart_keepsFrames (d : Device) (m : PortId) (h : FrameHeader) :
    (d.slotsCoherent → d.FramesSound → (d.takeFrameStart m h).FramesSound) ∧
      (d.ZoomsInRange → (d.takeFrameStart m h).ZoomsInRange) ∧
      (d.mode ≠ .streaming → d.AddsNothing (d.takeFrameStart m h)) := by
  have matched (e : Device) (streaming : e.mode = .streaming) :
      (e.slotsCoherent → e.FramesSound → (e.matchFrame m h).FramesSound) ∧
        (e.ZoomsInRange → (e.matchFrame m h).ZoomsInRange) := by
    obtain none | ⟨a, x, gives⟩ := e.matchFrame_takes m h
    · exact ⟨none.frames, none.zooms⟩
    · exact ⟨fun hd => gives.framesSound hd streaming, gives.zooms⟩
  by_cases link : (d.port m).state = .linked ∨ (d.port m).state = .stalled
  · by_cases streaming : d.mode = .streaming
    · rw [Device.takeFrameStart_of_link h link streaming]
      split
      · next f hf =>
        have ended := Device.faultFill_addsNothing d hf .short
        obtain ⟨frames, zooms⟩ := matched _ (ended.mode.trans streaming)
        exact ⟨fun hd sound => frames (ended.coherent hd) (ended.frames hd sound), zooms ∘ ended.zooms,
          fun other => absurd streaming other⟩
      · obtain ⟨frames, zooms⟩ := matched d streaming
        exact ⟨frames, zooms, fun other => absurd streaming other⟩
    · rw [Device.takeFrameStart_outside h link streaming]
      exact ⟨fun _ => id, id, fun _ => .refl d⟩
  · have other : d.AddsNothing (d.takeFrameStart m h) := by
      unfold Device.takeFrameStart
      split
      · exact Device.seekHeader_addsNothing d m h
      · exact .refl d
      · exact .refl d
      · exact .refl d
      · next hs => exact absurd (.inl hs) link
      · next hs => exact absurd (.inr hs) link
    exact ⟨other.frames, other.zooms, fun _ => other⟩

end Sys2Proof.Machine
end

section
/-! PROOFS. The planning takes in the FSYNCs of one new period and nothing else (R56, R114), for O58. -/

namespace Sys2Proof.Machine

open Sys2Proof

/-! ### The stages of a planning -/

/-- R45 to R48, R37: the ramp step leaves every zoom code in range. -/
theorem Device.rampStep_zooms {d : Device} (h : d.ZoomsInRange) :
    Device.ZoomsInRange { d with planner := d.planner.rampStep.1 } := by
  unfold Planner.rampStep
  split
  · next r hr =>
    obtain ⟨startLow, startHigh, targetLow, targetHigh, stepBelow, short⟩ := h.ramp r hr
    have between := Ramp.zoomAt_between (r := r) (j := r.step + 1) (by omega) (by omega) ⟨startLow, startHigh⟩
      ⟨targetLow, targetHigh⟩
    dsimp only
    split
    · next more =>
      exact ⟨between, h.applied, h.queue,
        fun x hx => (by cases hx; exact ⟨startLow, startHigh, targetLow, targetHigh, more, short⟩), h.records⟩
    · exact ⟨between, h.applied, h.queue, fun x hx => (by cases hx), h.records⟩
  · next hr =>
    split
    · next hq =>
      exact h
    · next e rest hq =>
      obtain ⟨low, high, short⟩ := h.queue e (by rw [hq]; exact List.mem_cons_self)
      have tail : ∀ x ∈ rest, 50 ≤ x.target ∧ x.target ≤ 10000 ∧ x.length ≤ 240 := fun x hx =>
        h.queue x (by rw [hq]; exact List.mem_cons_of_mem e hx)
      split
      · exact ⟨⟨low, high⟩, h.applied, tail, fun x hx => h.ramp x hx, h.records⟩
      · next long =>
        exact ⟨h.nominal, h.applied, tail,
          fun x hx => (by cases hx; exact ⟨h.nominal.1, h.nominal.2, low, high, Nat.pos_of_ne_zero long, short⟩),
          h.records⟩

theorem Device.countDown_addsNothing (d : Device) (k : Nat) : d.AddsNothing (d.countDown k) := by
  have counted := Device.onPlanner_addsNothing d
    (fun p => { p with bars := p.bars.map (· - 1), hold := p.hold - 1, guard := p.guard - 1 }) rfl rfl rfl rfl
  unfold Device.countDown
  dsimp only
  split
  · exact counted.trans (Device.raise_addsNothing _ _ _)
  · exact counted

theorem Device.beginHandoff_addsNothing (d : Device) (n : PortId) (dir : Direction) (k : Nat) (run : Option Nat) :
    d.AddsNothing (d.beginHandoff n dir k run) :=
  ((Device.setRole_addsNothing d n .dest).trans (Device.onPlanner_addsNothing _ _ rfl rfl rfl rfl)).trans
    (Device.raise_addsNothing _ _ _)

theorem Device.evaluateSteady_addsNothing (d : Device) (k : Nat) (run : Option Nat) :
    d.AddsNothing (d.evaluateSteady k run) := by
  unfold Device.evaluateSteady
  split
  · exact .refl d
  · split
    · split
      · exact Device.changeActive_addsNothing d _ _ _ _
      · exact .refl d
    · split
      · split
        · split
          · exact Device.beginHandoff_addsNothing d _ _ _ _
          · exact .refl d
        · exact .refl d
      · exact .refl d

theorem Device.evaluatePrepare_addsNothing (d : Device) (c : HandoffContext) (k : Nat) :
    d.AddsNothing (d.evaluatePrepare c k) := by
  have raised : d.AddsNothing (d.onPlanner fun p => { p with context := some { c with elapsed := c.elapsed + 1 } }) :=
    Device.onPlanner_addsNothing d _ rfl rfl rfl rfl
  unfold Device.evaluatePrepare
  dsimp only
  split_ifs
  · exact raised.trans (Device.abandon_addsNothing _ _ _)
  · exact raised.trans (Device.abandon_addsNothing _ _ _)
  · exact raised

theorem Device.evaluateBlend_addsNothing (d : Device) (c : HandoffContext) (k : Nat) (run : Option Nat) :
    d.AddsNothing (d.evaluateBlend c k run) := by
  unfold Device.evaluateBlend
  split
  · exact Device.onPlanner_addsNothing d _ rfl rfl rfl rfl
  · exact (Device.changeActive_addsNothing d _ _ _ _).trans (Device.evaluateSteady_addsNothing _ k run)

theorem Device.evaluateProbe_addsNothing (d : Device) (c : HandoffContext) (k : Nat) (run : Option Nat) (met : Bool) :
    d.AddsNothing (d.evaluateProbe c k run met) := by
  unfold Device.evaluateProbe
  split
  · exact Device.abandon_addsNothing d _ _
  · refine (Device.probeCheck_addsNothing d (d.appliedIn .probe)).trans ?_
    unfold Device.deferProbe
    split
    · split
      · exact Device.onPlanner_addsNothing _ _ rfl rfl rfl rfl
      · exact (Device.onPlanner_addsNothing _ _ rfl rfl rfl rfl).trans (Device.evaluateBlend_addsNothing _ _ k run)
    · exact .refl _

theorem Device.evaluate_addsNothing (d : Device) (k : Nat) (run : Option Nat) (met : Bool) :
    d.AddsNothing (d.evaluate k run met) := by
  unfold Device.evaluate
  split
  · exact Device.evaluateSteady_addsNothing d k run
  · exact Device.evaluatePrepare_addsNothing d _ k
  · exact Device.evaluateProbe_addsNothing d _ k run met
  · exact Device.evaluateBlend_addsNothing d _ k run
  · unfold Device.evaluateNoSource
    split
    · exact Device.changeActive_addsNothing d _ _ _ _
    · exact .refl d
  · exact .refl d

/-- R56: a planning is stages that take in nothing, and then the FSYNC requests of its sync set. -/
theorem Device.plan_requests (d : Device) (k : Nat) (met : Bool) :
    ∃ e : Device, d.AddsNothing e ∧ d.plan k met = (e.syncSet k).foldl (Device.requestFsync · k) e := by
  have stepped : d.AddsNothing { d with planner := d.planner.rampStep.1 } :=
    .of_planner rfl rfl rfl Device.rampStep_zooms
  have computed := stepped.trans ((Device.countDown_addsNothing _ k).trans
    ((Device.evaluate_addsNothing _ k d.planner.rampStep.2.1 met).trans (Device.recomputeApplied_addsNothing _)))
  have written (e : Device) : e.AddsNothing (e.writePlan k d.planner.rampStep.2.1) :=
    Device.onPlanner_addsNothing e _ rfl rfl rfl rfl
  unfold Device.plan
  dsimp only
  split
  · exact ⟨_, (computed.trans (Device.raise_addsNothing _ _ _)).trans (written _), rfl⟩
  · exact ⟨_, computed.trans (written _), rfl⟩

/-! ### The requests -/

/-- The state in which FSYNCs for period k may be requested: k is the newest period planned, and every frame and every FSYNC
issued is older. -/
structure Device.Requesting (d : Device) (k : Nat) : Prop where
  sound  : d.FramesSound
  next   : d.nextPeriod = k + 1
  issued : ∀ m, ∀ e ∈ (d.port m).expectations, e.period < k
  held   : ∀ x ∈ d.slots, ∀ j, x.period = some j → j < k

/-- R114: a request for the newest period, whether or not it replaces a pending one. -/
theorem Device.requestFsync_requesting {d : Device} {k : Nat} (h : d.Requesting k) (m : PortId) :
    (d.requestFsync k m).Requesting k := by
  obtain ⟨⟨quotas, owned, outside, filling, distinct, awaited⟩, next, issued, held⟩ := h
  unfold Device.requestFsync
  split
  swap
  · exact ⟨⟨quotas, owned, outside, filling, distinct, awaited⟩, next, issued, held⟩
  dsimp only
  generalize hx : Expectation.mk k (d.periodTime k + 100 + d.fsyncPhase m) (d.periodTime k + d.deadlineOffset m) = x
  have period : x.period = k := by rw [← hx]
  have port (n : PortId) : (d.onPort m fun q => { q with pendingFsync := some x }).port n =
      if n = m then { d.port m with pendingFsync := some x } else d.port n := Device.onPort_port_eq d m n _
  generalize he : (d.onPort m fun q => { q with pendingFsync := some x }) = e at port
  have slots : e.slots = d.slots := by rw [← he]; rfl
  have ctl : e.ctl = d.ctl := by rw [← he]; rfl
  have config (n : PortId) : (e.port n).config = (d.port n).config := by
    rw [port]; split
    · next hn => rw [hn]
    · rfl
  have expects (n : PortId) : (e.port n).expectations = (d.port n).expectations := by
    rw [port]; split
    · next hn => rw [hn]
    · rfl
  have fills (n : PortId) : (e.port n).filling = (d.port n).filling := by
    rw [port]; split
    · next hn => rw [hn]
    · rfl
  refine ⟨⟨?_, ?_, ?_, fun n f hf => ?_, ?_, fun n => ?_⟩, ?_, fun n => ?_, ?_⟩
  · rw [Device.quota_eq config]
    simpa only [Device.ownedCount, slots] using quotas
  · rw [slots, Device.nextPeriod_eq ctl]; exact owned
  · rw [slots, Device.mode, ctl]; exact outside
  · rw [fills] at hf; rw [slots]; exact filling n f hf
  · rw [slots]; exact distinct
  · rw [slots, Device.nextPeriod_eq ctl, next]
    by_cases hn : n = m
    · have rising := (awaited n).1
      rw [ModulePort.awaited, List.map_append] at rising
      rw [ModulePort.awaited, expects, port, if_pos hn]
      refine ⟨?_, fun y hy => ?_⟩
      · rw [List.map_append]
        refine List.pairwise_append.mpr ⟨(List.pairwise_append.mp rising).1, List.pairwise_singleton _ _, ?_⟩
        intro a ha b hb
        obtain ⟨y, hy, rfl⟩ := List.mem_map.mp ha
        obtain rfl := List.mem_singleton.mp hb
        rw [period]
        exact issued n y hy
      · obtain hy | hy := List.mem_append.mp hy
        · have old := (awaited n).2 y (List.mem_append_left _ hy)
          rw [next] at old
          exact old
        · obtain rfl := List.mem_singleton.mp hy
          rw [period]
          exact ⟨Nat.lt_succ_self k, fun s hs _ j hj => held s hs j hj⟩
    · rw [port, if_neg hn]
      have old := awaited n
      rw [next] at old
      exact old
  · rw [Device.nextPeriod_eq ctl]; exact next
  · rw [expects]; exact issued n
  · rw [slots]; exact held

theorem Device.foldl_requestFsync_requesting {d : Device} {k : Nat} (h : d.Requesting k) (l : List PortId) :
    (l.foldl (Device.requestFsync · k) d).Requesting k :=
  List.foldlRecOn (motive := fun e => e.Requesting k) l (Device.requestFsync · k) h fun _ he m _ =>
    Device.requestFsync_requesting he m

theorem Device.AddsNothing.requesting {d e : Device} {k : Nat} (h : d.AddsNothing e) (hd : d.slotsCoherent)
    (below : ∀ m, ∀ x ∈ (d.port m).awaited, x.period < k) (r : d.Requesting k) : e.Requesting k where
  sound := h.frames hd r.sound
  next := (Device.nextPeriod_eq h.ctl).trans r.next
  issued m x hx := below m x ((h.awaited m).subset (List.mem_append_left _ hx))
  held y hy j hj := by
    obtain ⟨x, hx, left⟩ := Slot.exists_leftOf (h.slots hd r.sound) hy
    obtain rfl | rfl | ⟨-, -, hp, -⟩ := left
    · exact r.held y hx j hj
    · cases hj
    · exact r.held x hx j (hp ▸ hj)

/-! ### The period start -/

/-- The conditions on frames hold with a later next period too. -/
theorem Device.FramesSound.of_later {d e : Device} (slots : e.slots = d.slots) (ports : e.ports = d.ports)
    (session : e.mode.inSession = d.mode.inSession) (next : d.nextPeriod ≤ e.nextPeriod) (h : d.FramesSound) :
    e.FramesSound := by
  have port (m : PortId) : e.port m = d.port m := by rw [Device.port, ports]; rfl
  refine ⟨?_, fun x hx hs => ?_, ?_, ?_, ?_, fun m => ?_⟩
  · rw [Device.quota_eq (d := d) (e := e) fun m => by rw [port]]
    simpa only [Device.ownedCount, slots] using h.quotas
  · rw [slots] at hx
    obtain ⟨ho, k, hk, below⟩ := h.owned x hx hs
    exact ⟨ho, k, hk, below.trans_le next⟩
  · rw [slots, session]; exact h.outside
  · intro m; rw [port, slots]; exact h.filling m
  · rw [slots]; exact h.distinct
  · rw [port, slots]
    exact ⟨(h.awaited m).1, fun x hx => ⟨((h.awaited m).2 x hx).1.trans_le next, ((h.awaited m).2 x hx).2⟩⟩

/-- R165: period start k is entered, with every frame and every FSYNC older than k. -/
theorem Device.enterPeriod_requesting {d : Device} (hd : d.slotsCoherent) (h : d.FramesSound)
    (session : d.ctl.session.isSome = true) :
    (d.enterPeriod d.nextPeriod (d.nextPeriod + 1)).Requesting d.nextPeriod := by
  have next : (d.enterPeriod d.nextPeriod (d.nextPeriod + 1)).nextPeriod = d.nextPeriod + 1 := by
    obtain ⟨x, hx⟩ := Option.isSome_iff_exists.mp session
    simp only [Device.nextPeriod, Device.enterPeriod, Device.onCtl_ctl, hx, Option.map_some, Option.getD_some]
  refine ⟨h.of_later (d := d) rfl rfl rfl (by rw [next]; exact Nat.le_succ _), next, fun m x hx => ?_, fun x hx j hj => ?_⟩
  · exact ((h.awaited m).2 x (List.mem_append_left _ hx)).1
  · have taken : x.state ≠ .free := fun hs => by
      have free := hd.2 x hx
      simp only [Slot.coherent, hs] at free
      rw [free.2.1] at hj
      cases hj
    obtain ⟨-, k, hk, below⟩ := h.owned x hx taken
    rw [hk] at hj
    cases hj
    exact below

/-- R56, R114, R122, R165: a period start keeps the conditions on frames and on zooms. -/
theorem Device.startPeriod_keepsFrames (d : Device) (met : Bool) :
    (d.slotsCoherent → d.FramesSound → d.ctl.session.isSome = true → (d.startPeriod met).FramesSound) ∧
      (d.ZoomsInRange → (d.startPeriod met).ZoomsInRange) := by
  obtain ⟨e, adds, plan⟩ := Device.plan_requests (d.enterPeriod d.nextPeriod (d.nextPeriod + 1)) d.nextPeriod met
  have aged (f : Device) := Device.AddsNothing.foldl Device.advanceStall Device.advanceStall_addsNothing PortId.all f
  have coherent (f : Device) (l : List PortId) (hf : f.slotsCoherent) :
      (l.foldl (Device.requestFsync · d.nextPeriod) f).slotsCoherent :=
    List.foldlRecOn (motive := Device.slotsCoherent) l (Device.requestFsync · d.nextPeriod) hf fun g hg m _ =>
      (Device.requestFsync_portKeeps g d.nextPeriod m).keeps.slots hg
  have zooms (f : Device) (l : List PortId) (hf : f.ZoomsInRange) :
      (l.foldl (Device.requestFsync · d.nextPeriod) f).ZoomsInRange :=
    List.foldlRecOn (motive := Device.ZoomsInRange) l (Device.requestFsync · d.nextPeriod) hf fun g hg m _ => by
      unfold Device.requestFsync
      split
      · exact hg.of_eq rfl rfl rfl rfl rfl
      · exact hg
  rw [Device.startPeriod, plan]
  refine ⟨fun hd h session => (aged _).frames ?_ ?_, fun h => (aged _).zooms (zooms _ _ (adds.zooms ?_))⟩
  · exact coherent _ _ (adds.coherent hd)
  · refine (Device.foldl_requestFsync_requesting (adds.requesting hd (fun m x hx => ?_) ?_) _).sound
    · exact ((h.awaited m).2 x hx).1
    · exact Device.enterPeriod_requesting hd h session
  · exact h.of_eq rfl rfl rfl rfl rfl

end Sys2Proof.Machine
end

section
/-! PROOFS. Zooms, the motion ring and the output buffers (R37, R93, R141 to R150): each outcome of a step keeps each of
these conditions, for O58. -/

namespace Sys2Proof.Machine

open Sys2Proof

/-! ### The conditions by what they read -/

/-- R93: the ring's condition reads the ring, the mode and the time base. -/
theorem Device.RingOrdered.of_eq {d e : Device} (h : d.RingOrdered) (motion : e.motion = d.motion)
    (mode : e.mode = d.mode) (now : d.now ≤ e.now) : e.RingOrdered where
  size := by rw [motion]; exact h.size
  outside hm := by rw [motion]; exact h.outside (mode ▸ hm)
  order := by rw [motion]; exact h.order
  past x hx := (h.past x (motion ▸ hx)).trans now

theorem Device.RingOrdered.of_empty {d : Device} (h : d.motion = []) : d.RingOrdered where
  size := by rw [h]; exact Nat.zero_le _
  outside _ := h
  order := by rw [h]; exact List.Pairwise.nil
  past x hx := by rw [h] at hx; cases hx

/-- R141: the buffers' condition reads the buffers, the composition and the sending record. -/
theorem Device.BuffersCoherent.of_eq {d e : Device} (h : d.BuffersCoherent) (buffers : e.buffers = d.buffers)
    (composing : e.composing = d.composing) (sending : e.link.sending = d.link.sending) : e.BuffersCoherent where
  ids := by rw [buffers]; exact h.ids
  composing := by rw [buffers, composing]; exact h.composing
  sending := by rw [buffers, sending]; exact h.sending
  last := by rw [buffers]; exact h.last
  repeating := by rw [buffers, sending]; exact h.repeating
  grey := by rw [sending]; exact h.grey

/-- Every buffer FREE, with nothing composed or sent. -/
theorem Device.BuffersCoherent.of_free {d : Device} (buffers : d.buffers = Device.freeBuffers)
    (composing : d.composing = none) (sending : d.link.sending = none) : d.BuffersCoherent := by
  have free : ∀ b ∈ d.buffers, b.state = .free := by
    rw [buffers]
    intro b hb
    obtain ⟨i, -, rfl⟩ := List.mem_map.mp hb
    rfl
  refine ⟨by rw [buffers]; decide, fun b hb => ?_, fun b hb => ?_, fun x hx y _ hs => ?_, fun r hr => ?_, fun r hr => ?_⟩
  · rw [free b hb, composing]; simp
  · rw [free b hb, sending]; simp
  · rw [free x hx] at hs; cases hs
  · rw [sending] at hr; cases hr
  · rw [sending] at hr; cases hr

theorem Device.BuffersCoherent.buffer_ext {d : Device} (h : d.BuffersCoherent) {x y : OutputBuffer} (hx : x ∈ d.buffers)
    (hy : y ∈ d.buffers) (hid : x.id = y.id) : x = y := by
  have nodup : (d.buffers.map OutputBuffer.id).Nodup := by rw [h.ids]; exact List.nodup_range
  exact List.inj_on_of_nodup_map nodup hx hy hid

/-- What makes `e` of `d` keeps each of these conditions on its own. -/
structure Device.KeepsRanges (d e : Device) : Prop where
  zooms   : d.ZoomsInRange → e.ZoomsInRange
  ring    : d.RingOrdered → e.RingOrdered
  buffers : d.BuffersCoherent → e.BuffersCoherent

theorem Device.KeepsRanges.refl (d : Device) : d.KeepsRanges d := ⟨id, id, id⟩

theorem Device.KeepsRanges.trans {d e f : Device} (h : d.KeepsRanges e) (g : e.KeepsRanges f) : d.KeepsRanges f :=
  ⟨g.zooms ∘ h.zooms, g.ring ∘ h.ring, g.buffers ∘ h.buffers⟩

/-- An operation that leaves the mode, the time base, the ring and the output side. -/
theorem Device.KeepsRanges.of_zooms {d e : Device} (ctl : e.ctl = d.ctl) (motion : e.motion = d.motion)
    (buffers : e.buffers = d.buffers) (composing : e.composing = d.composing) (sending : e.link.sending = d.link.sending)
    (zooms : d.ZoomsInRange → e.ZoomsInRange) : d.KeepsRanges e where
  zooms := zooms
  ring h := h.of_eq motion (by rw [Device.mode, ctl, Device.mode]) (by rw [Device.now, Device.now, ctl])
  buffers h := h.of_eq buffers composing sending

/-- An operation of the ports, the slots and the View Planner that leaves the zooms in range. -/
theorem Device.Keeps.keepsRanges {d e : Device} (h : d.Keeps e) (zooms : d.ZoomsInRange → e.ZoomsInRange) :
    d.KeepsRanges e :=
  .of_zooms h.ctl h.motion h.buffers h.composing (by rw [h.link]) zooms

/-- An operation of the output side. -/
theorem Device.OutputKeeps.keepsRanges {d e : Device} (h : d.OutputKeeps e)
    (buffers : d.BuffersCoherent → e.BuffersCoherent) : d.KeepsRanges e where
  zooms z := z.of_eq h.cal (by rw [h.planner]) (by rw [h.planner]) (by rw [h.planner]) (by rw [h.planner])
  ring r := r.of_eq h.motion (by rw [Device.mode, h.ctl, Device.mode]) (by rw [Device.now, Device.now, h.ctl])
  buffers := buffers

theorem Device.raise_keepsRanges (d : Device) (k : EventKind) (x : EventDetail) : d.KeepsRanges (d.raise k x) :=
  (Device.raise_keeps d k x).keepsRanges (Device.raise_addsNothing d k x).zooms

theorem Device.setReply_keepsRanges (d : Device) (p : CmdPort) (r : Reply) : d.KeepsRanges (d.setReply p r) := by
  cases p <;> exact .of_zooms rfl rfl rfl rfl rfl fun h => h.of_eq rfl rfl rfl rfl rfl

theorem Device.setCause_keepsRanges (d : Device) (p : CmdPort) (c : ResetCause) : d.KeepsRanges (d.setCause p c) := by
  cases p <;> exact .of_zooms rfl rfl rfl rfl rfl fun h => h.of_eq rfl rfl rfl rfl rfl

theorem Device.setEventSet_keepsRanges (d : Device) (p : CmdPort) (e : EventSet) : d.KeepsRanges (d.setEventSet p e) := by
  cases p <;> exact .of_zooms rfl rfl rfl rfl rfl fun h => h.of_eq rfl rfl rfl rfl rfl

/-- An update of the Mode Controller that leaves the mode and does not set the time base back. -/
theorem Device.onCtl_keepsRanges (d : Device) (f : ModeController → ModeController) (mode : (f d.ctl).mode = d.ctl.mode)
    (now : d.ctl.timeBase ≤ (f d.ctl).timeBase) : d.KeepsRanges (d.onCtl f) where
  zooms h := h.of_eq rfl rfl rfl rfl rfl
  ring h := h.of_eq rfl mode now
  buffers h := h.of_eq rfl rfl rfl

/-- An update of the View Planner that leaves the zooms in range. -/
theorem Device.onPlanner_keepsRanges (d : Device) (f : Planner → Planner)
    (zooms : d.ZoomsInRange → (d.onPlanner f).ZoomsInRange) : d.KeepsRanges (d.onPlanner f) :=
  .of_zooms rfl rfl rfl rfl rfl zooms

/-- A change of mode with the ring empty: from a mode that is not STREAMING, or with the ring emptied. -/
theorem Device.KeepsRanges.of_outside {d e : Device} (motion : e.motion = [] ∨ e.motion = d.motion)
    (mode : d.mode ≠ .streaming) (buffers : d.BuffersCoherent → e.BuffersCoherent)
    (zooms : d.ZoomsInRange → e.ZoomsInRange) : d.KeepsRanges e where
  zooms := zooms
  ring h := .of_empty (motion.elim id fun hm => hm.trans (h.outside mode))
  buffers := buffers

/-! ### Zooms -/

/-- R40: the entry of a request. -/
theorem Device.zoomEntry_range (d : Device) (id : Byte) (target : Word16) (n : Byte) :
    50 ≤ (d.zoomEntry id target n).target ∧ (d.zoomEntry id target n).target ≤ 10000 ∧
      (d.zoomEntry id target n).length ≤ 240 :=
  ⟨(d.clampZoom_range _).1, (d.clampZoom_range _).2, Nat.min_le_left _ _⟩

theorem Device.dropRequests_keepsRanges (d : Device) (l : List ZoomEntry)
    (hl : ∀ e ∈ l, 50 ≤ e.target ∧ e.target ≤ 10000 ∧ e.length ≤ 240) (r : Nat) :
    d.KeepsRanges (d.dropRequests l r) := by
  have emptied := Device.onPlanner_keepsRanges d (fun p => { p with ramp := none, queue := l })
    fun h => ⟨h.nominal, h.applied, hl, fun x hx => (by cases hx), h.records⟩
  unfold Device.dropRequests
  dsimp only
  split
  · exact emptied.trans (Device.raise_keepsRanges _ _ _)
  · exact emptied

theorem calInRange_range {f : CalFields} (h : calInRange f = true) :
    (calibrationOf f).base ≤ 5000 ∧ (calibrationOf f).margin ≤ 200 := by
  simp only [calInRange, within, Bool.and_eq_true, decide_eq_true_eq] at h
  simp only [calibrationOf]
  omega

theorem Device.calWrite_zooms {d : Device} (h : d.ZoomsInRange) (m : PortId) {c : Calibration} (base : c.base ≤ 5000)
    (margin : c.margin ≤ 200) : Device.ZoomsInRange { d with cal := d.cal.set m c } where
  nominal := h.nominal
  applied := h.applied
  queue := h.queue
  ramp := h.ramp
  records n := by
    simp only [Device.calOf, PerPort.get_set_eq]
    split
    · exact ⟨base, margin⟩
    · exact h.records n

/-! ### The motion ring (R95) -/

theorem ringIntake_ordered {l : List MotionSample} {x : MotionSample} (order : l.Pairwise fun y z => y.stamp ≤ z.stamp)
    (newest : ∀ y ∈ l, y.stamp ≤ x.stamp) : (ringIntake l x).Pairwise fun y z => y.stamp ≤ z.stamp := by
  have joined (k : List MotionSample) (hk : k.Sublist l) : (k ++ [x]).Pairwise fun y z => y.stamp ≤ z.stamp := by
    refine List.pairwise_append.mpr ⟨order.sublist hk, List.pairwise_singleton _ _, fun y hy z hz => ?_⟩
    rw [List.mem_singleton.mp hz]
    exact newest y (hk.subset hy)
  unfold ringIntake
  split
  · exact joined _ (List.drop_sublist 1 l)
  · exact joined _ (List.Sublist.refl l)

theorem mem_ringIntake {l : List MotionSample} {x y : MotionSample} (h : y ∈ ringIntake l x) : y ∈ l ∨ y = x := by
  unfold ringIntake at h
  split at h
  · rcases List.mem_append.mp h with h | h
    · exact .inl (List.mem_of_mem_drop h)
    · exact .inr (List.mem_singleton.mp h)
  · rcases List.mem_append.mp h with h | h
    · exact .inl h
    · exact .inr (List.mem_singleton.mp h)

theorem Device.motionSample_keepsRanges (d : Device) (ex ey q : Word16) (streaming : d.mode = .streaming) :
    d.KeepsRanges (d.motionSample ex ey q).2 := by
  have taken (x : MotionSample) (stamp : x.stamp = d.now) : d.KeepsRanges { d with motion := ringIntake d.motion x } := by
    refine ⟨fun h => h.of_eq rfl rfl rfl rfl rfl, fun h => ⟨ringIntake_length _ x h.size,
      fun other => absurd streaming other, ringIntake_ordered h.order fun y hy => ?_, fun y hy => ?_⟩,
      fun h => h.of_eq rfl rfl rfl⟩
    · rw [stamp]; exact h.past y hy
    · obtain hy | rfl := mem_ringIntake hy
      · exact h.past y hy
      · exact stamp.le
  unfold Device.motionSample
  dsimp only
  split
  · exact (taken _ rfl).trans (Device.raise_keepsRanges _ _ _)
  · exact taken _ rfl

/-! ### The output buffers -/

/-- The buffer of one number changed to a state that is neither SENDING nor LAST, the composition with it. -/
theorem Device.BuffersCoherent.of_one {d e : Device} (h : d.BuffersCoherent) {id : Nat} {st : BufferState}
    (g : OutputBuffer → OutputBuffer) (hid : ∀ b, (g b).id = b.id) (hst : ∀ b, (g b).state = st)
    (notSending : st ≠ .sending) (notLast : st ≠ .last)
    (buffers : e.buffers = d.buffers.map fun x => if x.id = id then g x else x)
    (sending : e.link.sending = d.link.sending) (unsent : ∀ x ∈ d.buffers, x.id = id → x.state ≠ .sending)
    (composing : ∀ k, e.composing.map Composition.buffer = some k ↔
      if k = id then st = .composing else d.composing.map Composition.buffer = some k) : e.BuffersCoherent := by
  have kinds {y : OutputBuffer} (hy : y ∈ e.buffers) :
      (y.id = id ∧ y.state = st ∧ d.link.sending.bind SendingRecord.buffer ≠ some id) ∨ (y.id ≠ id ∧ y ∈ d.buffers) := by
    rw [buffers] at hy
    obtain ⟨x, hx, rfl⟩ := List.mem_map.mp hy
    split
    · next same =>
      exact .inl ⟨(hid x).trans same, hst x, fun sent => unsent x hx same ((h.sending x hx).mpr (same ▸ sent))⟩
    · next other => exact .inr ⟨other, hx⟩
  refine ⟨?_, fun b hb => ?_, fun b hb => ?_, fun x hx y hy xl yl => ?_, fun r hr hk b hb => ?_, ?_⟩
  · rw [buffers, List.map_map, ← h.ids]
    refine List.map_congr_left fun x _ => ?_
    simp only [Function.comp]
    split
    · exact hid x
    · rfl
  · rw [composing]
    obtain ⟨same, state, -⟩ | ⟨other, hb⟩ := kinds hb
    · rw [if_pos same, state]
    · rw [if_neg other]; exact h.composing b hb
  · rw [sending]
    obtain ⟨same, state, sent⟩ | ⟨other, hb⟩ := kinds hb
    · rw [state, same]
      exact iff_of_false notSending sent
    · exact h.sending b hb
  · obtain ⟨-, state, -⟩ | ⟨-, hx⟩ := kinds hx
    · exact absurd (state.symm.trans xl) notLast
    · obtain ⟨-, state, -⟩ | ⟨-, hy⟩ := kinds hy
      · exact absurd (state.symm.trans yl) notLast
      · exact h.last x hx y hy xl yl
  · obtain ⟨-, state, -⟩ | ⟨-, hb⟩ := kinds hb
    · rw [state]; exact notLast
    · exact h.repeating r (sending ▸ hr) hk b hb
  · rw [sending]; exact h.grey

theorem Device.bufferIn_mem {d : Device} {st : BufferState} {b : OutputBuffer} (h : d.bufferIn st = some b) :
    b ∈ d.buffers ∧ b.state = st :=
  ⟨List.mem_of_find?_eq_some h, by simpa using List.find?_some h⟩

theorem Device.holdChosen_keeps (d : Device) (o : Option (Slot × Bool)) : d.Keeps (d.holdChosen o) := by
  cases o with
  | none => exact .refl d
  | some x => exact Device.holdSlot_keeps d x.1.id

/-- R145: the composition begins in a FREE buffer. -/
theorem Device.startComposition_buffers {d : Device} (plan : ViewPlan) (s : Selection) {b : OutputBuffer}
    (idle : d.composing = none) (hb : d.bufferIn .free = some b) (h : d.BuffersCoherent) :
    (d.startComposition plan s b).BuffersCoherent := by
  obtain ⟨mem, free⟩ := Device.bufferIn_mem hb
  have held := (Device.holdChosen_keeps d s.active).trans (Device.holdChosen_keeps _ s.dest)
  unfold Device.startComposition
  dsimp only
  generalize (d.holdChosen s.active).holdChosen s.dest = e at held
  generalize d.assembleTrailer plan s = t
  refine h.of_one (id := b.id) (st := .composing)
    (fun x => { x with state := .composing, period := some plan.period, trailer := some t }) (fun _ => rfl)
    (fun _ => rfl) (by decide) (by decide) ?_ (by rw [← held.link]; rfl) (fun x hx same => ?_) fun k => ?_
  · rw [← held.buffers]; rfl
  · rw [h.buffer_ext hx mem same, free]
    decide
  · rw [idle]
    show (some b.id = some k) ↔ _
    split
    · next same => rw [same]; simp
    · next other => simp [Ne.symm other]

theorem Device.takePlan_buffers {d : Device} (plan : ViewPlan) (rest : List ViewPlan) (h : d.BuffersCoherent) :
    (d.takePlan plan rest).BuffersCoherent := by
  have planned : (d.onPlanner fun p => { p with plans := rest }).BuffersCoherent := h.of_eq rfl rfl rfl
  have composed : ((d.onPlanner fun p => { p with plans := rest }).composeFrame plan).BuffersCoherent := by
    unfold Device.composeFrame
    split
    · exact planned.of_eq rfl rfl rfl
    · next idle =>
      split
      · exact planned.of_eq rfl rfl rfl
      · split
        · exact planned.of_eq rfl rfl rfl
        · next hb => exact Device.startComposition_buffers plan _ idle hb planned
  have superseded := Device.supersedeAll_keeps
    { (d.onPlanner fun p => { p with plans := rest }).composeFrame plan with composePoint := plan.period + 1 }
  exact composed.of_eq superseded.buffers superseded.composing (by rw [Device.takePlan, Device.advanceComposePoint,
    superseded.link])

/-- R147: the composition ends, its buffer COMPLETE or discarded. -/
theorem Device.finishComposition_buffers {d : Device} {c : Composition} (hc : d.composing = some c)
    (h : d.BuffersCoherent) : (d.finishComposition c).BuffersCoherent := by
  have link : (d.finishComposition c).link = d.link := by
    rw [Device.finishComposition_eq]
    exact ((d.releaseOption c.activeSlot).releaseOption_rest c.destSlot).1.trans (d.releaseOption_rest c.activeSlot).1
  have buffers : (d.finishComposition c).buffers = d.buffers.map fun x =>
      if x.id = c.buffer then (if d.pendingNames c.buffer then { x with state := .complete } else OutputBuffer.freed x.id)
      else x := by rw [Device.finishComposition_eq]
  have idle : (d.finishComposition c).composing = none := by rw [Device.finishComposition_eq]
  refine h.of_one (id := c.buffer) (st := if d.pendingNames c.buffer then .complete else .free)
    (fun x => if d.pendingNames c.buffer then { x with state := .complete } else OutputBuffer.freed x.id)
    (fun x => ?_) (fun x => ?_) ?_ ?_ buffers (by rw [link]) (fun x hx same => ?_) fun k => ?_
  · split <;> rfl
  · split <;> rfl
  · split <;> decide
  · split <;> decide
  · have composing : x.state = .composing := by rw [h.composing x hx, hc, same]; rfl
    rw [composing]
    decide
  · rw [idle, hc]
    split
    · next same =>
      refine iff_of_false (by simp) ?_
      split <;> simp
    · next other => simp [Ne.symm other]

/-- R149: an emission begins: FRESH in a COMPLETE buffer, REPEAT of the LAST one, or GREY without one. -/
theorem Device.send_buffers {d : Device} (h : d.BuffersCoherent) (idle : d.link.sending = none) (k : Nat)
    (kind : EmissionKind) (o : Option Nat) (t : Option Trailer) (grey : kind = .grey ↔ o = none)
    (chosen : ∀ x ∈ d.buffers, o = some x.id → x.state = .complete ∨ x.state = .last)
    (repeated : kind = .repeated → ∀ x ∈ d.buffers, x.state = .last → o = some x.id) :
    (d.send k kind o t).BuffersCoherent := by
  have unsent : ∀ x ∈ d.buffers, x.state ≠ .sending := fun x hx hs => by
    have := (h.sending x hx).mp hs
    rw [idle] at this
    cases this
  obtain ⟨composing, sending⟩ : (d.send k kind o t).composing = d.composing ∧
      (d.send k kind o t).link.sending = some { period := k, kind := kind, buffer := o } := by
    cases o <;> exact ⟨rfl, rfl⟩
  have buffers : (d.send k kind o t).buffers =
      d.buffers.map fun x => if o = some x.id then { x with state := .sending } else x := by
    cases o with
    | none => exact (List.map_id'' (fun x => if_neg (by simp)) _).symm
    | some b =>
      refine List.map_congr_left fun x _ => if_congr ?_ rfl rfl
      rw [Option.some.injEq, eq_comm]
  generalize d.send k kind o t = e at composing sending buffers
  have kinds {y : OutputBuffer} (hy : y ∈ e.buffers) :
      (o = some y.id ∧ y.state = .sending ∧ d.composing.map Composition.buffer ≠ some y.id) ∨
        (o ≠ some y.id ∧ y ∈ d.buffers) := by
    rw [buffers] at hy
    obtain ⟨x, hx, rfl⟩ := List.mem_map.mp hy
    split
    · next same =>
      refine .inl ⟨same, rfl, fun composed => ?_⟩
      have state := (h.composing x hx).mpr composed
      obtain hc | hl := chosen x hx same
      · rw [state] at hc; cases hc
      · rw [state] at hl; cases hl
    · next other => exact .inr ⟨other, hx⟩
  refine ⟨?_, fun b hb => ?_, fun b hb => ?_, fun x hx y hy xl yl => ?_, fun r hr hk b hb hs => ?_, fun r hr => ?_⟩
  · rw [buffers, List.map_map, ← h.ids]
    refine List.map_congr_left fun x _ => ?_
    simp only [Function.comp]
    split <;> rfl
  · rw [composing]
    obtain ⟨-, state, composed⟩ | ⟨-, hb⟩ := kinds hb
    · rw [state]
      exact iff_of_false (by decide) composed
    · exact h.composing b hb
  · rw [sending]
    obtain ⟨same, state, -⟩ | ⟨other, hb⟩ := kinds hb
    · exact iff_of_true state same
    · exact iff_of_false (unsent b hb) other
  · obtain ⟨-, state, -⟩ | ⟨-, hx⟩ := kinds hx
    · rw [state] at xl; cases xl
    · obtain ⟨-, state, -⟩ | ⟨-, hy⟩ := kinds hy
      · rw [state] at yl; cases yl
      · exact h.last x hx y hy xl yl
  · rw [sending] at hr
    cases hr
    obtain ⟨-, state, -⟩ | ⟨other, hb⟩ := kinds hb
    · rw [state] at hs; cases hs
    · exact other (repeated hk b hb hs)
  · rw [sending] at hr
    cases hr
    exact grey

theorem Device.countNonFresh_buffers {d : Device} (h : d.BuffersCoherent) (k : Nat) (cause : RepeatCause) :
    (d.countNonFresh k cause).BuffersCoherent := by
  rw [Device.countNonFresh_eq]
  dsimp only
  split <;> exact h.of_eq rfl rfl rfl

theorem Device.freshBuffer_mem {d : Device} {r : PendingRecord} {b : OutputBuffer} (h : d.freshBuffer r = some b) :
    b ∈ d.buffers ∧ b.state = .complete := by
  unfold Device.freshBuffer at h
  split at h
  · obtain ⟨named, complete⟩ := Option.filter_eq_some_iff.mp h
    exact ⟨List.mem_of_find?_eq_some named, of_decide_eq_true complete⟩
  · cases h

theorem Device.emissionDue_idle {d : Device} {r : PendingRecord} (h : d.emissionDue = some r) : d.link.sending = none := by
  obtain ⟨-, -, -, idle, -⟩ := (Device.emissionDue_iff d).mp (by rw [h]; rfl)
  exact idle

theorem Device.txDue_sending {d : Device} {r : SendingRecord} (h : d.txDue = some r) : d.link.sending = some r := by
  unfold Device.txDue at h
  split at h
  · cases h
  · next q hq =>
    split at h
    · rw [hq, h]
    · cases h

theorem Device.emit_buffers {d : Device} (h : d.BuffersCoherent) (idle : d.link.sending = none) (r : PendingRecord) :
    (d.emit r).BuffersCoherent := by
  unfold Device.emit
  split
  · next b hb =>
    obtain ⟨mem, complete⟩ := Device.freshBuffer_mem hb
    refine Device.BuffersCoherent.of_eq (Device.send_buffers h idle r.period .fresh (some b.id) b.trailer (by simp)
      (fun x hx same => .inl ?_) (fun hk => by cases hk)) rfl rfl rfl
    rw [h.buffer_ext hx mem (Option.some.inj same).symm]
    exact complete
  · split
    · next b hb =>
      obtain ⟨mem, last⟩ := Device.bufferIn_mem hb
      refine Device.countNonFresh_buffers (Device.send_buffers h idle _ _ _ _ (by simp) (fun x hx same => .inr ?_)
        fun _ x hx hs => ?_) _ _
      · rw [h.buffer_ext hx mem (Option.some.inj same).symm]
        exact last
      · rw [h.last x hx b mem hs last]
    · exact Device.countNonFresh_buffers (Device.send_buffers h idle _ _ _ _ (by simp) (fun x _ same => by cases same)
        fun hk => by cases hk) _ _

/-- R150: the buffer sent becomes the LAST one. -/
theorem Device.buffersSettled_eq {d : Device} (h : d.BuffersCoherent) {r : SendingRecord} (hr : d.link.sending = some r) :
    d.buffersSettled r = d.buffers.map fun x =>
      if r.buffer = some x.id then { x with state := .last }
      else if r.buffer ≠ none ∧ x.state = .last then OutputBuffer.freed x.id else x := by
  have grey := h.grey r hr
  have repeating := h.repeating r hr
  unfold Device.buffersSettled
  rcases hk : r.kind <;> rcases hb : r.buffer with _ | b
  · rw [hk, hb] at grey; cases grey.mpr rfl
  · refine List.map_congr_left fun x _ => ?_
    simp only [Option.some.injEq, ne_eq, reduceCtorEq, not_false_eq_true, true_and, eq_comm (a := b)]
  · rw [hk, hb] at grey; cases grey.mpr rfl
  · refine List.map_congr_left fun x hx => ?_
    simp only [Option.some.injEq, ne_eq, reduceCtorEq, not_false_eq_true, true_and, eq_comm (a := b),
      repeating hk x hx, if_false]
  · exact (List.map_id'' (fun x => by simp) _).symm
  · rw [hk, hb] at grey; cases grey.mp rfl

theorem Device.endEmission_buffers {d : Device} (h : d.BuffersCoherent) {r : SendingRecord}
    (hr : d.link.sending = some r) : (d.endEmission r).BuffersCoherent := by
  obtain ⟨buffers, composing, sending⟩ : (d.endEmission r).buffers = d.buffersSettled r ∧
      (d.endEmission r).composing = d.composing ∧ (d.endEmission r).link.sending = none := by
    rw [Device.endEmission_eq]
    dsimp only
    split <;> exact ⟨rfl, rfl, rfl⟩
  rw [Device.buffersSettled_eq h hr] at buffers
  generalize d.endEmission r = e at buffers composing sending
  have kinds {y : OutputBuffer} (hy : y ∈ e.buffers) :
      (r.buffer = some y.id ∧ y.state = .last ∧ d.composing.map Composition.buffer ≠ some y.id) ∨
        (r.buffer ≠ some y.id ∧ (r.buffer ≠ none → y.state ≠ .last) ∧ y.state ≠ .sending ∧
          (y.state = .composing ↔ d.composing.map Composition.buffer = some y.id) ∧
          (y.state = .last → y ∈ d.buffers)) := by
    rw [buffers] at hy
    obtain ⟨x, hx, rfl⟩ := List.mem_map.mp hy
    have sent := h.sending x hx
    have composed := h.composing x hx
    rw [hr] at sent
    split_ifs with same last
    · refine .inl ⟨same, rfl, fun composing => ?_⟩
      have state := sent.mpr same
      rw [composed.mpr composing] at state
      cases state
    · refine .inr ⟨same, nofun, nofun, iff_of_false nofun fun composing => ?_, nofun⟩
      rw [composed.mpr composing] at last
      cases last.2
    · exact .inr ⟨same, fun taken hs => last ⟨taken, hs⟩, mt sent.mp same, composed, fun _ => hx⟩
  have ids : e.buffers.map OutputBuffer.id = List.range 3 := by
    rw [buffers, List.map_map, ← h.ids]
    refine List.map_congr_left fun x _ => ?_
    simp only [Function.comp]
    split_ifs <;> rfl
  have nodup : (e.buffers.map OutputBuffer.id).Nodup := by rw [ids]; exact List.nodup_range
  refine ⟨ids, fun b hb => ?_, fun b hb => ?_, fun x hx y hy xl yl => ?_, fun q hq => ?_, fun q hq => ?_⟩
  · rw [composing]
    obtain ⟨-, state, composed⟩ | ⟨-, -, -, composed, -⟩ := kinds hb
    · rw [state]
      exact iff_of_false (by decide) composed
    · exact composed
  · rw [sending]
    refine iff_of_false ?_ (by simp)
    obtain ⟨-, state, -⟩ | ⟨-, -, state, -⟩ := kinds hb
    · rw [state]; decide
    · exact state
  · obtain ⟨xb, -⟩ | ⟨-, xn, -, -, xd⟩ := kinds hx
    · obtain ⟨yb, -⟩ | ⟨-, yn, -⟩ := kinds hy
      · exact List.inj_on_of_nodup_map nodup hx hy (Option.some.inj (xb.symm.trans yb))
      · exact absurd yl (yn (by rw [xb]; simp))
    · obtain ⟨yb, -⟩ | ⟨-, -, -, -, yd⟩ := kinds hy
      · exact absurd xl (xn (by rw [yb]; simp))
      · exact h.last x (xd xl) y (yd yl) xl yl
  · rw [sending] at hq; cases hq
  · rw [sending] at hq; cases hq

/-! ### The mode's operations -/

/-- A device that a reset makes: the ring empty, the buffers FREE, the zooms at 1000 and every calibration record in
range. -/
theorem Device.KeepsRanges.of_reset {d e : Device} (planner : e.planner = Planner.initial) (motion : e.motion = [])
    (buffers : e.buffers = Device.freeBuffers) (composing : e.composing = none) (link : e.link = OutputLink.initial)
    (cal : d.ZoomsInRange → ∀ m, (e.calOf m).base ≤ 5000 ∧ (e.calOf m).margin ≤ 200) : d.KeepsRanges e where
  zooms h := by
    refine ⟨?_, ?_, fun x hx => ?_, fun x hx => ?_, cal h⟩
    · rw [planner]; decide
    · rw [planner]; decide
    · rw [planner] at hx; cases hx
    · rw [planner] at hx; cases hx
  ring _ := .of_empty motion
  buffers _ := .of_free buffers composing (by rw [link]; rfl)

theorem Device.poweredOn_keepsRanges (d : Device) (cause : ResetCause) (low high : Bool) :
    d.KeepsRanges (Device.poweredOn cause low high) :=
  .of_reset rfl rfl rfl rfl rfl fun _ m => by
    have initial : (Device.poweredOn cause low high).calOf m = Calibration.initial := by cases m <;> rfl
    rw [initial]
    decide

theorem Device.softReset_keepsRanges (d : Device) (p : CmdPort) : d.KeepsRanges (d.softReset p) :=
  .of_reset rfl rfl rfl rfl rfl fun h => h.records

/-- R159: an entry from a mode that is not STREAMING. -/
theorem Device.enterMode_keepsRanges (d : Device) (m : Mode) (outside : d.mode ≠ .streaming) :
    d.KeepsRanges (d.enterMode m) :=
  .of_outside (.inr rfl) outside (fun h => h.of_eq rfl rfl rfl) fun h => h.of_eq rfl rfl rfl rfl rfl

/-- R169: the drain check. -/
theorem Device.drainCheck_keepsRanges (d : Device) : d.KeepsRanges d.drainCheck := by
  by_cases ends : d.mode = .stopping ∧ d.draining = false
  · obtain ⟨composing, -, sending⟩ := (Device.draining_eq_false_iff d).mp ends.2
    rw [Device.drainCheck_of_drained ends.1 ends.2]
    exact .of_outside (.inr rfl) (by rw [ends.1]; decide) (fun _ => .of_free rfl composing sending)
      fun h => h.of_eq rfl rfl rfl rfl rfl
  · rw [Device.drainCheck, if_neg ends]
    exact .refl d

/-- R169: STREAM_STOP. -/
theorem Device.stopStream_keepsRanges (d : Device) : d.KeepsRanges d.stopStream := by
  rw [Device.stopStream_eq]
  refine .trans (e := d.stopActions) ⟨fun h => ?_, fun _ => .of_empty rfl, fun h => h.of_eq rfl rfl ?_⟩
    (Device.drainCheck_keepsRanges _)
  · exact ⟨h.nominal, h.applied, fun x hx => (by cases hx), fun x hx => (by cases hx), h.records⟩
  · show d.link.stop.sending = d.link.sending
    rw [OutputLink.stop_rest]

/-- R165: a period start in a session. -/
theorem Device.startPeriod_keepsRanges (d : Device) (met : Bool) : d.KeepsRanges (d.startPeriod met) := by
  have keeps := Device.startPeriod_keeps d met
  have entered := Device.onCtl_keepsRanges d
    (fun c => { c with session := c.session.map fun s => { s with current := d.nextPeriod, nextPlan := d.nextPeriod + 1 } })
    rfl (le_refl _)
  refine ⟨(d.startPeriod_keepsFrames met).2, fun h => ?_, fun h => ?_⟩
  · exact (entered.ring h).of_eq keeps.motion keeps.mode (by rw [Device.now, Device.now, keeps.ctl]; exact le_refl _)
  · exact (entered.buffers h).of_eq keeps.buffers keeps.composing (by rw [keeps.link]; rfl)

/-- R168: an accepted STREAM_START. -/
theorem Device.startStream_keepsRanges (d : Device) (a : PortId) (standby : d.mode = .standby) :
    d.KeepsRanges (d.startStream a) := by
  have planned (e : Device) : e.KeepsRanges (e.startPlanner a) := by
    refine .trans (e := e.onPlanner _) (Device.onPlanner_keepsRanges e _ fun h => ?_)
      ((Device.recomputeApplied_keeps _).keepsRanges (Device.recomputeApplied_addsNothing _).zooms)
    exact h.of_eq rfl rfl rfl rfl rfl
  have started (e : Device) : e.KeepsRanges e.startOutput :=
    .of_zooms rfl rfl rfl rfl rfl fun h => h.of_eq rfl rfl rfl rfl rfl
  have begins (e : Device) : e.KeepsRanges e.beginSession :=
    Device.onCtl_keepsRanges e (fun c => { c with session := some { start := e.now, current := 0, nextPlan := 0 } }) rfl
      (le_refl _)
  exact ((((d.enterMode_keepsRanges .streaming (by rw [standby]; decide)).trans (planned _)).trans (started _)).trans
    (begins _)).trans (Device.startPeriod_keepsRanges _ false)

/-- R162, R163: STANDBY entered with the time base at 0. -/
theorem Device.enterStandbyAtZero_keepsRanges (d : Device) (outside : d.mode ≠ .streaming) :
    d.KeepsRanges d.enterStandbyAtZero :=
  .of_outside (.inr rfl) outside (fun h => h.of_eq rfl rfl rfl) fun h => h.of_eq rfl rfl rfl rfl rfl

/-! ### Every outcome of a step -/

/-- Every owner keeps each of these conditions. -/
theorem Device.Owned.keepsRanges {i : Instr} {p : CmdPort} {d e : Device} (h : d.Owned i p e) : d.KeepsRanges e := by
  cases h with
  | unchanged => exact .refl d
  | causeRead => exact Device.setCause_keepsRanges d p _
  | wake _ _ hm =>
    exact .of_outside (.inr rfl) (by rw [hm]; decide) (fun h => h.of_eq rfl rfl rfl) fun h => h.of_eq rfl rfl rfl rfl rfl
  | sleep _ _ hm =>
    have down := Device.takeAllDown_portKeeps PortId.all d
    have zooms := Device.AddsNothing.foldl (fun e m => e.takeDown m .off) (fun e m => e.takeDown_addsNothing m .off)
      PortId.all d
    refine (down.keeps.keepsRanges zooms.zooms).trans (Device.enterMode_keepsRanges _ .dormant ?_)
    rw [down.keeps.mode, hm]; decide
  | softReset => exact Device.softReset_keepsRanges d p
  | portConfig => exact .of_zooms rfl rfl rfl rfl rfl fun h => h.of_eq rfl rfl rfl rfl rfl
  | portEnable => exact (Device.bringUp_portKeeps d _ _ _).keeps.keepsRanges (Device.bringUp_addsNothing d _ _ _).zooms
  | portDisable => exact (Device.disable_portKeeps d _).keeps.keepsRanges (Device.disable_addsNothing d _).zooms
  | calWrite _ f _ m _ _ hr =>
    obtain ⟨base, margin⟩ := calInRange_range hr
    exact .of_zooms rfl rfl rfl rfl rfl fun h => Device.calWrite_zooms h m base margin
  | outputConfig => exact Device.onCtl_keepsRanges d _ rfl (le_refl _)
  | handoffConfig => exact Device.onCtl_keepsRanges d _ rfl (le_refl _)
  | zoomSet =>
    exact Device.onPlanner_keepsRanges d _ fun h => ⟨d.clampZoom_range _, h.applied, h.queue, h.ramp, h.records⟩
  | zoomAppend _ id target n =>
    refine Device.onPlanner_keepsRanges d _ fun h => ⟨h.nominal, h.applied, fun x hx => ?_, h.ramp, h.records⟩
    obtain hx | hx := List.mem_append.mp hx
    · exact h.queue x hx
    · rw [List.mem_singleton.mp hx]; exact d.zoomEntry_range id target n
  | zoomReplace _ id target n =>
    refine Device.dropRequests_keepsRanges d _ (fun x hx => ?_) _
    rw [List.mem_singleton.mp hx]
    exact d.zoomEntry_range id target n
  | zoomCancel => exact Device.dropRequests_keepsRanges d _ (fun x hx => by cases hx) _
  | hold => exact Device.onPlanner_keepsRanges d _ fun h => h.of_eq rfl rfl rfl rfl rfl
  | captureConfig => exact Device.onPlanner_keepsRanges d _ fun h => h.of_eq rfl rfl rfl rfl rfl
  | motionSample _ _ _ _ _ hm => exact Device.motionSample_keepsRanges d _ _ _ hm
  | streamStart _ _ a hm => exact Device.startStream_keepsRanges d a hm
  | streamStop => exact Device.stopStream_keepsRanges d
  | outputFence => exact .of_zooms rfl rfl rfl rfl rfl fun h => h.of_eq rfl rfl rfl rfl rfl
  | eventConfig => exact Device.setEventSet_keepsRanges d p _
  | ackEvents => exact Device.setEventSet_keepsRanges d p _
  | clearFault => exact .of_zooms rfl rfl rfl rfl rfl fun h => h.of_eq rfl rfl rfl rfl rfl

/-- Every outcome of a command or event keeps each of these conditions. -/
theorem Device.Move.keepsRanges {i : Instr} {d e : Device} (h : d.Move i e) : d.KeepsRanges e := by
  cases h with
  | unchanged => exact .refl d
  | powerOn => exact Device.poweredOn_keepsRanges d _ _ _
  | pinReset => exact Device.poweredOn_keepsRanges d _ _ _
  | resetRelease => exact Device.onCtl_keepsRanges d _ rfl (le_refl _)
  | refused => exact Device.setReply_keepsRanges d _ _
  | answered _ _ _ _ e _ _ _ ho => exact ho.keepsRanges.trans (Device.setReply_keepsRanges e _ _)
  | wakeComplete _ hd | softResetComplete _ hd =>
    simp only [Device.wakeDue, Device.softResetDue, Bool.and_eq_true, decide_eq_true_eq] at hd
    exact Device.enterStandbyAtZero_keepsRanges d (by rw [hd.1]; decide)
  | drainEnd => exact Device.drainCheck_keepsRanges d
  | startPeriod _ met => exact Device.startPeriod_keepsRanges d met
  | autoReset m =>
    exact (Device.onCtl_keepsRanges d _ rfl (le_refl _)).trans ((Device.autoReset_portKeeps _ m).keeps.keepsRanges
      (Device.bringUp_addsNothing _ m _ _).zooms)
  | issueFsync m x _ hx =>
    exact (Device.issueFsync_portKeeps d m x).keeps.keepsRanges
      (Device.issueFsync_addsNothing d m (Option.filter_eq_some_iff.mp hx).1).zooms
  | openSeek m =>
    exact (Device.openSeek_portKeeps d m).keeps.keepsRanges (Device.onPort_addsNothing_plain d m _).zooms
  | endSeekWindow m =>
    exact (Device.endSeekWindow_portKeeps d m).keeps.keepsRanges (Device.endSeekWindow_addsNothing d m).zooms
  | frameStart m h =>
    exact (Device.takeFrameStart_portKeeps d m h).keeps.keepsRanges (Device.takeFrameStart_keepsFrames d m h).2.1
  | badLine m _ _ _ _ f r _ hf =>
    exact (Device.faultFill_portKeeps d m f r).keeps.keepsRanges (Device.faultFill_addsNothing d hf r).zooms
  | goodLine => exact .of_zooms rfl rfl rfl rfl rfl fun h => h.of_eq rfl rfl rfl rfl rfl
  | frameEnd m =>
    exact (Device.takeFrameEnd_portKeeps d m).keeps.keepsRanges (Device.takeFrameEnd_addsNothing d m).zooms
  | fillTimeout m f _ hf =>
    exact (Device.faultFill_portKeeps d m f _).keeps.keepsRanges (Device.faultFill_addsNothing d hf _).zooms
  | frameDeadline m x rest _ hx =>
    exact (Device.passDeadline_portKeeps d m x rest hx).keeps.keepsRanges (Device.passDeadline_addsNothing d m hx).zooms
  | probeComplete c q =>
    exact (Device.completeProbe_portKeeps d c q).keeps.keepsRanges (Device.completeProbe_addsNothing d c q).zooms
  | captureEdge x =>
    unfold Device.captureEdge
    split
    · exact (Device.raise_keepsRanges d _ _).trans (Device.onPlanner_keepsRanges _ _ fun h => h.of_eq rfl rfl rfl rfl rfl)
    · exact .refl d
  | composeDeadline plan rest => exact (Device.takePlan_keeps d _ _).keepsRanges (Device.takePlan_buffers plan rest)
  | compositionComplete c _ hc =>
    exact ((Device.finishComposition_keeps d c).keepsRanges (Device.finishComposition_buffers hc)).trans
      (Device.drainCheck_keepsRanges _)
  | emissionStart r _ hr =>
    exact (Device.emit_keeps d r).keepsRanges fun h => Device.emit_buffers h (Device.emissionDue_idle hr) r
  | txDone r _ hr =>
    exact ((Device.endEmission_keeps d r).keepsRanges fun h =>
      Device.endEmission_buffers h (Device.txDue_sending hr)).trans (Device.drainCheck_keepsRanges _)

/-- Every step keeps the zooms, the ring and the buffers. -/
theorem step_keepsRanges {s t : State} (h : step s = .next t) : s.dev.KeepsRanges t.dev := by
  obtain rfl | ⟨i, hm⟩ := step_move h
  · obtain he | ⟨-, he⟩ := s.tick_dev
    · rw [he]; exact .refl _
    · rw [he]; exact Device.onCtl_keepsRanges _ _ rfl (Nat.le_succ _)
  · exact hm.keepsRanges

end Sys2Proof.Machine
end

section
/-! PROOFS. Frames, FSYNCs and quotas (R127, R128, R114 to R119, R123, R133): each outcome of a step keeps the conditions on
them, and so every step keeps the conditions of O58. -/

namespace Sys2Proof.Machine

open Sys2Proof

/-! ### Devices without a frame -/

/-- No frame, and no FSYNC awaited: the state of every block outside STREAMING and STOPPING. -/
structure Device.FramesIdle (d : Device) : Prop where
  quotas   : (PortId.all.map d.quota).sum ≤ 12
  coherent : d.slotsCoherent
  free     : ∀ x ∈ d.slots, x.state = .free
  ports    : ∀ m, (d.port m).awaited = [] ∧ (d.port m).filling = none

/-- A FREE slot has no owner and no content period. -/
theorem Slot.fields_of_free {x : Slot} (h : x.coherent) (free : x.state = .free) : x.owner = none ∧ x.period = none := by
  simp only [Slot.coherent, free] at h
  exact ⟨h.1, h.2.1⟩

theorem Device.FramesIdle.framesCoherent {d : Device} (h : d.FramesIdle) : d.FramesCoherent := by
  have unowned (x : Slot) (hx : x ∈ d.slots) : x.owner = none := (Slot.fields_of_free (h.coherent.2 x hx) (h.free x hx)).1
  refine ⟨⟨h.quotas, fun m => ?_⟩, fun x hx hs => absurd (h.free x hx) hs, fun _ => h.free, fun m f hf => ?_,
    fun x hx y _ ho => ?_, fun m => ?_, fun _ => h.ports⟩
  · have none : d.slots.filter (fun x => x.ownedBy m) = [] := List.filter_eq_nil_iff.mpr fun x hx => by
      rw [Slot.ownedBy_iff, unowned x hx]
      exact nofun
    rw [Device.ownedCount, none]
    exact Nat.zero_le _
  · rw [(h.ports m).2] at hf; cases hf
  · rw [unowned x hx] at ho; cases ho
  · rw [(h.ports m).1]
    exact ⟨List.Pairwise.nil, fun e he => by cases he⟩

theorem Device.FramesCoherent.framesIdle {d : Device} (h : d.FramesCoherent) (hd : d.slotsCoherent)
    (outside : d.mode.inSession = false) : d.FramesIdle :=
  ⟨h.quotas.1, hd, h.outside outside, h.idle fun streaming => by rw [streaming] at outside; cases outside⟩

/-! ### The relation -/

/-- What makes `e` of `d` keeps the conditions on frames, where the slot records are coherent. -/
def Device.KeepsFrames (d e : Device) : Prop := d.slotsCoherent → d.FramesCoherent → e.FramesCoherent

theorem Device.KeepsFrames.refl (d : Device) : d.KeepsFrames d := fun _ => id

theorem Device.KeepsFrames.trans {d e f : Device} (h : d.KeepsFrames e) (coherent : d.slotsCoherent → e.slotsCoherent)
    (g : e.KeepsFrames f) : d.KeepsFrames f := fun hd hf => g (coherent hd) (h hd hf)

/-- An operation that takes in no frame and no FSYNC. -/
theorem Device.AddsNothing.keepsFrames {d e : Device} (h : d.AddsNothing e) : d.KeepsFrames e := fun hd hf => by
  obtain ⟨sound, idle⟩ := (Device.framesCoherent_iff d).mp hf
  refine (Device.framesCoherent_iff e).mpr ⟨h.frames hd sound, fun hm m => ?_⟩
  obtain ⟨awaited, filling⟩ := idle (h.mode ▸ hm) m
  exact ⟨List.sublist_nil.mp (awaited ▸ h.awaited m), h.unfilled m filling⟩

/-- An operation that leaves the slots and the ports, does not set the next period back, and stays on its side of the
session. -/
theorem Device.KeepsFrames.of_rest {d e : Device} (slots : e.slots = d.slots) (ports : e.ports = d.ports)
    (session : e.mode.inSession = d.mode.inSession) (streaming : d.mode = .streaming → e.mode = .streaming)
    (next : d.nextPeriod ≤ e.nextPeriod) : d.KeepsFrames e := fun _ hf => by
  obtain ⟨sound, idle⟩ := (Device.framesCoherent_iff d).mp hf
  refine (Device.framesCoherent_iff e).mpr ⟨sound.of_later slots ports session next, fun hm m => ?_⟩
  rw [Device.port, ports]
  exact idle (mt streaming hm) m

/-- An operation that leaves the slots, the ports and the Mode Controller. -/
theorem Device.KeepsFrames.of_ctl {d e : Device} (slots : e.slots = d.slots) (ports : e.ports = d.ports)
    (ctl : e.ctl = d.ctl) : d.KeepsFrames e :=
  .of_rest slots ports (Device.inSession_eq ctl) (fun h => by rw [Device.mode, ctl]; exact h)
    (by rw [Device.nextPeriod_eq ctl])

/-- An operation outside STREAMING and STOPPING that leaves the slots and the ports. -/
theorem Device.KeepsFrames.of_outside {d e : Device} (slots : e.slots = d.slots) (ports : e.ports = d.ports)
    (outside : d.mode.inSession = false) : d.KeepsFrames e := fun hd hf => by
  have idle := hf.framesIdle hd outside
  have port (m : PortId) : e.port m = d.port m := by rw [Device.port, ports]; rfl
  refine Device.FramesIdle.framesCoherent ⟨?_, ?_, by rw [slots]; exact idle.free, fun m => by rw [port]; exact idle.ports m⟩
  · rw [Device.quota_eq (d := d) (e := e) fun m => by rw [port]]
    exact idle.quotas
  · rw [Device.slotsCoherent, slots]
    exact hd

/-- Every slot FREE and every port at its power-on values. -/
theorem Device.KeepsFrames.of_reset {d e : Device} (slots : e.slots = Device.freeSlots)
    (ports : e.ports = PerPort.all ModulePort.initial) : d.KeepsFrames e := fun _ _ => by
  have port (m : PortId) : e.port m = ModulePort.initial := by
    rw [Device.port, ports]
    cases m <;> rfl
  have coherent : e.slotsCoherent := by
    rw [Device.slotsCoherent, slots]
    exact Device.freeSlots_coherent
  refine Device.FramesIdle.framesCoherent ⟨?_, coherent, ?_, fun m => by rw [port]; exact ⟨rfl, rfl⟩⟩
  · have none : e.quota = fun _ => 0 := by
      funext m
      rw [Device.quota, port]
      rfl
    rw [none]
    decide
  · rw [slots]
    intro x hx
    obtain ⟨i, -, rfl⟩ := List.mem_map.mp hx
    rfl

/-! ### The mode's operations -/

/-- R105: a configuration in STANDBY, its quota within what the others leave. -/
theorem Device.portConfig_keepsFrames (d : Device) (m : PortId) (c : PortConfig) (standby : d.mode = .standby)
    (quota : d.quotaSum m c.quota ≤ 12) :
    d.KeepsFrames (d.onPort m fun q => { q with config := some c, newestExposure := c.exposure }) := fun hd hf => by
  have idle := hf.framesIdle hd (by rw [standby]; rfl)
  have port (n : PortId) : (d.onPort m fun q => { q with config := some c, newestExposure := c.exposure }).port n =
      if n = m then { d.port m with config := some c, newestExposure := c.exposure } else d.port n :=
    Device.onPort_port_eq d m n _
  refine Device.FramesIdle.framesCoherent ⟨?_, hd, idle.free, fun n => ?_⟩
  · refine le_of_eq_of_le (congrArg List.sum (List.map_congr_left fun n _ => ?_)) quota
    rw [Device.quota, port]
    by_cases hn : n = m
    · rw [if_pos hn, if_pos hn]
    · rw [if_neg hn, if_neg hn]; rfl
  · rw [port]
    split
    · exact idle.ports m
    · exact idle.ports n

/-- R169: the drain check. -/
theorem Device.drainCheck_keepsFrames (d : Device) : d.KeepsFrames d.drainCheck := fun hd hf => by
  by_cases ends : d.mode = .stopping ∧ d.draining = false
  · rw [Device.drainCheck_of_drained ends.1 ends.2, Device.enterStandbyFromStopping_eq]
    refine Device.FramesIdle.framesCoherent ⟨hf.quotas.1, Device.freeSlots_coherent, fun x hx => ?_,
      hf.idle (by rw [ends.1]; decide)⟩
    obtain ⟨i, -, rfl⟩ := List.mem_map.mp hx
    rfl
  · rw [Device.drainCheck, if_neg ends]
    exact hf

/-- R123, R133, R169: the stop actions. -/
theorem Device.stopActions_keepsFrames (d : Device) (streaming : d.mode = .streaming) :
    d.KeepsFrames d.stopActions := fun hd hf => by
  have port (m : PortId) : d.stopActions.port m = (d.port m).stop := PerPort.get_map _ _ m
  obtain ⟨sound, -⟩ := (Device.framesCoherent_iff d).mp hf
  refine (Device.framesCoherent_iff _).mpr ⟨sound.of_leftOf (d := d) ((Device.freeWhere_keeps d Slot.unheld).slots hd) ?_ rfl
    (fun m => by rw [port]; rfl) ?_ (fun m => by rw [port]; exact List.nil_sublist _) fun m f hf => ?_, fun _ m => ?_⟩
  · rw [streaming]; rfl
  · refine List.forall₂_map_right_iff.mpr (List.forall₂_same.mpr fun x _ => ?_)
    split
    · exact .inr (.inl rfl)
    · exact .refl x
  · rw [port] at hf; cases hf
  · rw [port]; exact ⟨rfl, rfl⟩

/-- R165: a period start in STREAMING. -/
theorem Device.startPeriod_keepsFramesCoherent (d : Device) (met : Bool) (streaming : d.mode = .streaming)
    (session : d.ctl.session.isSome = true) : d.KeepsFrames (d.startPeriod met) := fun hd hf => by
  obtain ⟨sound, -⟩ := (Device.framesCoherent_iff d).mp hf
  have mode : (d.startPeriod met).mode = .streaming := (Device.startPeriod_keeps d met).mode.trans streaming
  exact (Device.framesCoherent_iff _).mpr ⟨(d.startPeriod_keepsFrames met).1 hd sound session, fun hm => absurd mode hm⟩

/-- R168: an accepted STREAM_START. -/
theorem Device.startStream_keepsFrames (d : Device) (a : PortId) (standby : d.mode = .standby) :
    d.KeepsFrames (d.startStream a) := by
  have planned (e : Device) : (e.startPlanner a).slots = e.slots ∧ (e.startPlanner a).ports = e.ports ∧
      (e.startPlanner a).ctl = e.ctl := by
    unfold Device.startPlanner Device.recomputeApplied
    split <;> exact ⟨rfl, rfl, rfl⟩
  obtain ⟨slots, ports, ctl⟩ := planned (d.enterMode .streaming)
  have begun : d.KeepsFrames ((d.enterMode .streaming).startPlanner a).startOutput.beginSession :=
    .of_outside slots ports (by rw [standby]; rfl)
  refine begun.trans (fun hd => ?_) (Device.startPeriod_keepsFramesCoherent _ false ?_ rfl)
  · show (_ : List Slot).map Slot.id = _ ∧ _
    exact slots ▸ hd
  · exact (congrArg ModeController.mode ctl :)

/-! ### Every outcome of a step -/

/-- Every owner keeps the conditions on frames. -/
theorem Device.Owned.keepsFrames {i : Instr} {p : CmdPort} {d e : Device} (h : d.Owned i p e) : d.KeepsFrames e := by
  cases h with
  | unchanged => exact .refl d
  | causeRead => cases p <;> exact .of_ctl rfl rfl rfl
  | wake _ _ hm => exact .of_outside rfl rfl (by rw [hm]; rfl)
  | sleep _ _ hm =>
    have down := Device.AddsNothing.foldl (fun e m => e.takeDown m .off) (fun e m => e.takeDown_addsNothing m .off)
      PortId.all d
    exact down.keepsFrames.trans down.coherent (.of_outside rfl rfl (by rw [down.mode, hm]; rfl))
  | softReset => exact .of_reset rfl rfl
  | portConfig _ _ _ m c hm _ _ hq => exact Device.portConfig_keepsFrames d m c hm hq
  | portEnable => exact (Device.bringUp_addsNothing d _ _ _).keepsFrames
  | portDisable => exact (Device.disable_addsNothing d _).keepsFrames
  | calWrite => exact .of_ctl rfl rfl rfl
  | outputConfig => exact .of_rest rfl rfl rfl id (le_refl _)
  | handoffConfig => exact .of_rest rfl rfl rfl id (le_refl _)
  | zoomSet => exact .of_ctl rfl rfl rfl
  | zoomAppend => exact .of_ctl rfl rfl rfl
  | zoomReplace | zoomCancel =>
    unfold Device.dropRequests
    dsimp only
    split <;> exact .of_ctl rfl rfl rfl
  | hold => exact .of_ctl rfl rfl rfl
  | captureConfig => exact .of_ctl rfl rfl rfl
  | motionSample =>
    unfold Device.motionSample
    dsimp only
    split <;> exact .of_ctl rfl rfl rfl
  | streamStart _ _ a hm => exact Device.startStream_keepsFrames d a hm
  | streamStop _ _ hm =>
    rw [Device.stopStream_eq]
    exact (Device.stopActions_keepsFrames d hm).trans (Device.freeWhere_keeps d Slot.unheld).slots
      (Device.drainCheck_keepsFrames _)
  | outputFence => exact .of_ctl rfl rfl rfl
  | eventConfig => cases p <;> exact .of_ctl rfl rfl rfl
  | ackEvents => cases p <;> exact .of_ctl rfl rfl rfl
  | clearFault => exact .of_ctl rfl rfl rfl

theorem Device.setReply_keepsFrames (d : Device) (p : CmdPort) (r : Reply) : d.KeepsFrames (d.setReply p r) := by
  cases p <;> exact .of_ctl rfl rfl rfl

/-- Every outcome of a command or event keeps the conditions on frames. -/
theorem Device.Move.keepsFrames {i : Instr} {d e : Device} (h : d.Move i e) : d.KeepsFrames e := by
  cases h with
  | unchanged => exact .refl d
  | powerOn => exact .of_reset rfl rfl
  | pinReset => exact .of_reset rfl rfl
  | resetRelease => exact .of_rest rfl rfl rfl id (le_refl _)
  | refused => exact Device.setReply_keepsFrames d _ _
  | answered _ _ _ _ e _ _ _ ho => exact ho.keepsFrames.trans ho.keepsRecords.slots (Device.setReply_keepsFrames e _ _)
  | wakeComplete _ hd | softResetComplete _ hd =>
    simp only [Device.wakeDue, Device.softResetDue, Bool.and_eq_true, decide_eq_true_eq] at hd
    exact .of_outside rfl rfl (by rw [hd.1]; rfl)
  | drainEnd => exact Device.drainCheck_keepsFrames d
  | startPeriod _ met _ _ hd =>
    simp only [Device.periodDue, Bool.and_eq_true, decide_eq_true_eq] at hd
    obtain ⟨⟨⟨streaming, session⟩, -⟩, -⟩ := hd
    exact Device.startPeriod_keepsFramesCoherent d met streaming session
  | autoReset m =>
    have next : d.nextPeriod ≤ (d.enterPeriod d.nextPeriod d.nextPeriod).nextPeriod := by
      rcases hs : d.ctl.session with _ | x <;>
        simp [Device.nextPeriod, Device.enterPeriod, hs]
    refine .trans (e := d.enterPeriod d.nextPeriod d.nextPeriod) (.of_rest rfl rfl rfl id next) id ?_
    exact (Device.bringUp_addsNothing _ m _ _).keepsFrames
  | issueFsync m x _ hx => exact (Device.issueFsync_addsNothing d m (Option.filter_eq_some_iff.mp hx).1).keepsFrames
  | openSeek m => exact (Device.onPort_addsNothing_plain d m _).keepsFrames
  | endSeekWindow m => exact (Device.endSeekWindow_addsNothing d m).keepsFrames
  | frameStart m h =>
    obtain ⟨frames, -, outside⟩ := Device.takeFrameStart_keepsFrames d m h
    intro hd hf
    by_cases streaming : d.mode = .streaming
    · have mode : (d.takeFrameStart m h).mode = .streaming :=
        (Device.takeFrameStart_portKeeps d m h).keeps.mode.trans streaming
      exact (Device.framesCoherent_iff _).mpr
        ⟨frames hd ((Device.framesCoherent_iff d).mp hf).1, fun hm => absurd mode hm⟩
    · exact (outside streaming).keepsFrames hd hf
  | badLine m _ _ _ _ f r _ hf => exact (Device.faultFill_addsNothing d hf r).keepsFrames
  | goodLine m _ _ _ _ f _ hf =>
    exact (Device.onPort_addsNothing d m _ rfl (List.Sublist.refl _) fun g hg => ⟨f, hf, by cases hg; rfl⟩).keepsFrames
  | frameEnd m => exact (Device.takeFrameEnd_addsNothing d m).keepsFrames
  | fillTimeout m f _ hf => exact (Device.faultFill_addsNothing d hf _).keepsFrames
  | frameDeadline m x rest _ hx => exact (Device.passDeadline_addsNothing d m hx).keepsFrames
  | probeComplete c q => exact (Device.completeProbe_addsNothing d c q).keepsFrames
  | captureEdge x =>
    unfold Device.captureEdge
    split
    · exact .of_ctl rfl rfl rfl
    · exact .refl d
  | composeDeadline plan rest => exact (Device.takePlan_addsNothing d plan rest).keepsFrames
  | compositionComplete c =>
    have finished := Device.finishComposition_addsNothing d c
    exact finished.keepsFrames.trans finished.coherent (Device.drainCheck_keepsFrames _)
  | emissionStart r => exact (Device.emit_addsNothing d r).keepsFrames
  | txDone r =>
    have ended := Device.endEmission_addsNothing d r
    exact ended.keepsFrames.trans ended.coherent (Device.drainCheck_keepsFrames _)

/-- Every step keeps the conditions on frames, where the slot records are coherent. -/
theorem step_keepsFrames {s t : State} (h : step s = .next t) : s.dev.KeepsFrames t.dev := by
  obtain rfl | ⟨i, hm⟩ := step_move h
  · obtain he | ⟨-, he⟩ := s.tick_dev
    · rw [he]; exact .refl _
    · rw [he]; exact .of_rest rfl rfl rfl id (le_refl _)
  · exact hm.keepsFrames

/-- Settles O58: each outcome of a step keeps each of the conditions. -/
theorem stepKeepsRecordsCoherent : Obligations.StepKeepsRecordsCoherent := by
  intro s t h
  obtain ⟨events, queues, session, slots, -⟩ := step_keepsRecords h
  obtain ⟨zooms, ring, buffers⟩ := step_keepsRanges h
  exact ⟨events, queues, session, slots, zooms, ring, buffers, fun _ => step_keepsFrames h⟩

end Sys2Proof.Machine
end

section
/-! PROOFS. The roles of the ports and the hand-off that they stand for (R53, R55, R60, R61, R69 to R73): the condition that
is kept, in a form that one port may be outside of while it reports, and the changes of role, for O59. -/

namespace Sys2Proof.Machine

open Sys2Proof

/-! ### The condition -/

/-- The conditions of `Device.RolesCoherent`, with the context present in the states that have one; those on links leave
out the ports that have still to report a change of theirs. -/
structure Device.Seated (d : Device) (reporting : PortId → Prop) : Prop where
  oneActive  : ∀ m n, d.role m = .active → d.role n = .active → m = n
  dest       : ∀ m, d.role m = .dest ↔ d.planner.context.map HandoffContext.dest = some m
  source     : d.mode.inSession = true → ((∃ m, d.role m = .active) ↔ d.planner.state ≠ some .noSource)
  handoff    : d.planner.context.isSome = (d.planner.state.map HandoffState.underWay).getD false
  linkless   : d.mode = .streaming → ∀ m, ¬ reporting m → (d.port m).hasLink = false → d.role m = .cold
  destLinked : d.mode = .streaming → ∀ m, ¬ reporting m → d.role m = .dest → (d.port m).state = .linked

/-- No port has a change of its link to report. -/
def Device.AllSeated (d : Device) : Prop := d.Seated fun _ => False

theorem Device.allSeated_iff (d : Device) : d.AllSeated ↔ d.RolesCoherent ∧
    d.planner.context.isSome = (d.planner.state.map HandoffState.underWay).getD false :=
  ⟨fun h => ⟨⟨h.oneActive, h.dest, h.source, fun hm m => h.linkless hm m id, fun hm m => h.destLinked hm m id⟩, h.handoff⟩,
    fun ⟨h, handoff⟩ => ⟨h.oneActive, h.dest, h.source, handoff, fun hm m _ => h.linkless hm m,
      fun hm m _ => h.destLinked hm m⟩⟩

/-- One more port reports. -/
theorem Device.AllSeated.reporting {d : Device} (h : d.AllSeated) (r : PortId → Prop) : d.Seated r :=
  ⟨h.oneActive, h.dest, h.source, h.handoff, fun hm m _ => h.linkless hm m id, fun hm m _ => h.destLinked hm m id⟩

/-- A port that reports nothing that its role does not allow. -/
theorem Device.Seated.settle {d : Device} {m : PortId} (h : d.Seated (· = m))
    (link : d.mode = .streaming → (d.port m).hasLink = false → d.role m = .cold)
    (dest : d.mode = .streaming → d.role m = .dest → (d.port m).state = .linked) : d.AllSeated where
  oneActive := h.oneActive
  dest := h.dest
  source := h.source
  handoff := h.handoff
  linkless hm n _ hl := by
    by_cases hn : n = m
    · rw [hn] at hl ⊢; exact link hm hl
    · exact h.linkless hm n hn hl
  destLinked hm n _ hd := by
    by_cases hn : n = m
    · rw [hn] at hd ⊢; exact dest hm hd
    · exact h.destLinked hm n hn hd

/-- R55: a context is that of a state with an ACTIVE port. -/
theorem Device.Seated.sourced {d : Device} {r : PortId → Prop} (h : d.Seated r) (hc : d.planner.context ≠ none) :
    d.planner.state ≠ some .noSource := fun hs => by
  have handoff := h.handoff
  rw [hs, Option.isSome_iff_ne_none.mpr hc] at handoff
  cases handoff

theorem Device.Seated.no_context {d : Device} {r : PortId → Prop} (h : d.Seated r)
    (hs : d.planner.state = some .steady ∨ d.planner.state = some .noSource) : d.planner.context = none := by
  have handoff := h.handoff
  obtain hs | hs := hs <;> rw [hs] at handoff <;> exact Option.isNone_iff_eq_none.mp (Option.isSome_eq_false_iff.mp handoff)

theorem Device.Seated.role_ne_dest {d : Device} {r : PortId → Prop} (h : d.Seated r) (hc : d.planner.context = none)
    (m : PortId) : d.role m ≠ .dest := fun hd => by
  have := (h.dest m).mp hd
  rw [hc] at this
  cases this

theorem ModulePort.hasLink_of_linked {q : ModulePort} (h : q.state = .linked) : q.hasLink = true :=
  q.hasLink_iff.mpr (.inl h)

/-! ### Operations that change no role -/

/-- What makes `e` of `d` changes no role, keeps the DEST of the context and what the hand-off state stands for, and no port
loses its link. -/
structure Device.SeatsHold (d e : Device) : Prop where
  roles    : ∀ m, e.role m = d.role m
  dest     : e.planner.context.map HandoffContext.dest = d.planner.context.map HandoffContext.dest
  source   : e.planner.state = some .noSource ↔ d.planner.state = some .noSource
  underWay : (e.planner.state.map HandoffState.underWay).getD false =
    (d.planner.state.map HandoffState.underWay).getD false
  mode     : e.mode = d.mode
  linkless : ∀ m, (e.port m).hasLink = false → (d.port m).hasLink = false
  linked   : ∀ m, (d.port m).state = .linked → (e.port m).state = .linked

theorem Device.SeatsHold.refl (d : Device) : d.SeatsHold d :=
  ⟨fun _ => rfl, rfl, Iff.rfl, rfl, rfl, fun _ => id, fun _ => id⟩

theorem Device.SeatsHold.trans {d e f : Device} (h : d.SeatsHold e) (g : e.SeatsHold f) : d.SeatsHold f :=
  ⟨fun m => (g.roles m).trans (h.roles m), g.dest.trans h.dest, g.source.trans h.source, g.underWay.trans h.underWay,
    g.mode.trans h.mode, fun m => h.linkless m ∘ g.linkless m, fun m => g.linked m ∘ h.linked m⟩

theorem Device.SeatsHold.foldl {α : Type} (op : Device → α → Device) (h : ∀ (d : Device) (a : α), d.SeatsHold (op d a))
    (l : List α) (d : Device) : d.SeatsHold (l.foldl op d) := by
  induction l generalizing d with
  | nil => exact .refl d
  | cons a rest ih => exact (h d a).trans (ih _)

theorem Device.SeatsHold.seated {d e : Device} (h : d.SeatsHold e) {r : PortId → Prop} (hd : d.Seated r) : e.Seated r where
  oneActive m n := by rw [h.roles, h.roles]; exact hd.oneActive m n
  dest m := by rw [h.roles, h.dest]; exact hd.dest m
  source hm := by
    rw [h.mode] at hm
    simp only [h.roles]
    exact (hd.source hm).trans (not_congr h.source.symm)
  handoff := by
    rw [h.underWay, ← hd.handoff, ← Option.isSome_map (f := HandoffContext.dest), h.dest, Option.isSome_map]
  linkless hm m hr hl := by
    rw [h.roles]
    exact hd.linkless (h.mode ▸ hm) m hr (h.linkless m hl)
  destLinked hm m hr hm' := by
    rw [h.roles] at hm'
    exact h.linked m (hd.destLinked (h.mode ▸ hm) m hr hm')

/-- An operation that leaves the roles, the context's DEST, the hand-off state, the mode and the port states. -/
theorem Device.SeatsHold.of_eq {d e : Device} (roles : e.planner.roles = d.planner.roles)
    (dest : e.planner.context.map HandoffContext.dest = d.planner.context.map HandoffContext.dest)
    (state : e.planner.state = d.planner.state) (mode : e.mode = d.mode)
    (ports : ∀ m, (e.port m).state = (d.port m).state) : d.SeatsHold e where
  roles m := congrArg (PerPort.get · m) roles
  dest := dest
  source := by rw [state]
  underWay := by rw [state]
  mode := mode
  linkless m := by rw [ModulePort.hasLink, ModulePort.hasLink, ports]; exact id
  linked m := by rw [ports]; exact id

/-- An operation that leaves the View Planner, the mode and the port states. -/
theorem Device.SeatsHold.of_planner {d e : Device} (planner : e.planner = d.planner) (mode : e.mode = d.mode)
    (ports : ∀ m, (e.port m).state = (d.port m).state) : d.SeatsHold e :=
  .of_eq (by rw [planner]) (by rw [planner]) (by rw [planner]) mode ports

theorem Device.raise_seatsHold (d : Device) (k : EventKind) (x : EventDetail) : d.SeatsHold (d.raise k x) :=
  .of_planner rfl rfl fun _ => rfl

/-- An update of the View Planner that leaves roles, DEST and state. -/
theorem Device.onPlanner_seatsHold (d : Device) (f : Planner → Planner) (roles : (f d.planner).roles = d.planner.roles)
    (dest : (f d.planner).context.map HandoffContext.dest = d.planner.context.map HandoffContext.dest)
    (state : (f d.planner).state = d.planner.state) : d.SeatsHold (d.onPlanner f) :=
  .of_eq roles dest state rfl fun _ => rfl

theorem Device.recomputeApplied_seatsHold (d : Device) : d.SeatsHold d.recomputeApplied := by
  unfold Device.recomputeApplied
  split
  · exact .refl d
  · exact Device.onPlanner_seatsHold d _ rfl rfl rfl

/-- An update of one port that leaves its state. -/
theorem Device.onPort_seatsHold (d : Device) (m : PortId) (f : ModulePort → ModulePort)
    (state : ∀ q, (f q).state = q.state := by intro q; rfl) : d.SeatsHold (d.onPort m f) :=
  .of_planner rfl rfl fun n => by
    rw [Device.onPort_port_eq]
    split
    · next hn => rw [state, hn]
    · rfl

/-- An update of one port that becomes LINKED, or has no link before or after. -/
theorem Device.onPort_seatsHold_of_link (d : Device) (m : PortId) (f : ModulePort → ModulePort)
    (state : (f (d.port m)).state = .linked ∨ (d.port m).hasLink = false) : d.SeatsHold (d.onPort m f) where
  roles _ := rfl
  dest := rfl
  source := Iff.rfl
  underWay := rfl
  mode := rfl
  linkless n := by
    rw [Device.onPort_port_eq]
    split
    · next hn =>
      rw [hn]
      intro none
      refine state.resolve_left fun linked => ?_
      rw [ModulePort.hasLink_of_linked linked] at none
      cases none
    · exact id
  linked n := by
    rw [Device.onPort_port_eq]
    split
    · next hn =>
      rw [hn]
      intro linked
      refine state.resolve_right fun none => ?_
      rw [ModulePort.hasLink_of_linked linked] at none
      cases none
    · exact id

/-- R107: a port changed in any way has its change to report. -/
theorem Device.AllSeated.onPort {d : Device} (h : d.AllSeated) (m : PortId) (f : ModulePort → ModulePort) :
    (d.onPort m f).Seated (· = m) where
  oneActive := h.oneActive
  dest := h.dest
  source := h.source
  handoff := h.handoff
  linkless hm n hn := by
    rw [Device.onPort_port_eq, if_neg hn]
    exact h.linkless hm n id
  destLinked hm n hn := by
    rw [Device.onPort_port_eq, if_neg hn]
    exact h.destLinked hm n id

theorem Device.freeUnheld_seatsHold (d : Device) (m : PortId) : d.SeatsHold (d.freeUnheld m) :=
  .of_planner rfl rfl fun n => by
    rw [Device.freeUnheld, Device.onPort_port_eq]
    split
    · next hn => rw [hn]; rfl
    · rfl

/-! ### Changes of role -/

/-- What a change of roles makes of the device. -/
structure Device.Reseats (d e : Device) (role : PortId → Role) (dest : Option PortId) (state : HandoffState) : Prop where
  roles : ∀ m, e.role m = role m
  dest  : e.planner.context.map HandoffContext.dest = dest
  state : e.planner.state = some state
  mode  : e.mode = d.mode
  ports : ∀ m, (e.port m).state = (d.port m).state

theorem Device.Reseats.then {d e f : Device} {role : PortId → Role} {dest : Option PortId} {st : HandoffState}
    (h : d.Reseats e role dest st) (roles : f.planner.roles = e.planner.roles)
    (context : f.planner.context = e.planner.context) (state : f.planner.state = e.planner.state) (mode : f.mode = e.mode)
    (ports : f.ports = e.ports) : d.Reseats f role dest st where
  roles m := (congrArg (PerPort.get · m) roles).trans (h.roles m)
  dest := by rw [context]; exact h.dest
  state := state.trans h.state
  mode := mode.trans h.mode
  ports m := by rw [Device.port, ports]; exact h.ports m

/-- R58: the applied zoom recomputed. -/
theorem Device.Reseats.recomputed {d e : Device} {role : PortId → Role} {dest : Option PortId} {st : HandoffState}
    (h : d.Reseats e role dest st) : d.Reseats e.recomputeApplied role dest st := by
  rw [Device.recomputeApplied_eq]
  exact h.then rfl rfl rfl rfl rfl

theorem Device.freedFor_portState (d : Device) (m n : PortId) (r : Role) :
    ((d.freedFor m r).port n).state = (d.port n).state := by
  unfold Device.freedFor
  split
  · rw [Device.freeUnheld, Device.onPort_port_eq]
    split
    · next hn => rw [hn]; rfl
    · rfl
  · rfl

theorem Device.freedFor_mode (d : Device) (m : PortId) (r : Role) : (d.freedFor m r).mode = d.mode := by
  unfold Device.freedFor
  split <;> rfl

/-- R61, R67, R71: port n becomes ACTIVE, port a takes the role its state and configuration give it. -/
theorem Device.changeActive_reseats (d : Device) (a n : PortId) (reason : ChangeReason) (k : Nat) :
    d.Reseats (d.changeActive (some a) n reason k)
      (fun m => if m = n then .active else if m = a then d.restRole a else d.role m) none .steady where
  roles m := Device.changeActive_role d a n m reason k
  dest := by rw [Device.changeActive_eq]; rfl
  state := by rw [Device.changeActive_eq]; rfl
  mode := by rw [Device.changeActive_eq]; exact Device.freedFor_mode d a _
  ports m := by rw [Device.changeActive_eq]; exact Device.freedFor_portState d a m _

theorem Device.changeActive_none_reseats (d : Device) (n : PortId) (reason : ChangeReason) (k : Nat) :
    d.Reseats (d.changeActive none n reason k) (fun m => if m = n then .active else d.role m) none .steady where
  roles m := by rw [Device.changeActive_none]; exact PerPort.get_set_eq _ n m _
  dest := by rw [Device.changeActive_none]; rfl
  state := by rw [Device.changeActive_none]; rfl
  mode := by rw [Device.changeActive_none]; rfl
  ports m := by rw [Device.changeActive_none]; rfl

/-- R69: an abandon. -/
theorem Device.abandon_reseats {d : Device} {c : HandoffContext} (hc : d.planner.context = some c) (reason : AbandonReason)
    (k : Nat) :
    d.Reseats (d.abandon reason k) (fun m => if m = c.dest then d.restRole c.dest else d.role m) none .steady where
  roles m := by rw [Device.abandon_eq hc]; exact PerPort.get_set_eq _ c.dest m _
  dest := by rw [Device.abandon_eq hc]; rfl
  state := by rw [Device.abandon_eq hc]; rfl
  mode := by rw [Device.abandon_eq hc]; exact Device.freedFor_mode d c.dest _
  ports m := by rw [Device.abandon_eq hc]; exact Device.freedFor_portState d c.dest m _

/-- R70: an abort. -/
theorem Device.abort_reseats (d : Device) (m : PortId) (r : LossReport) :
    d.Reseats (d.abort m r) (fun n => if n = m then d.restRole m else d.role n) none .steady := by
  have ended : d.Reseats ((d.setRole m (d.restRole m)).setBar m d.ctl.handoff.backoff).endHandoff
      (fun n => if n = m then d.restRole m else d.role n) none .steady := by
    refine ⟨fun n => Device.setRole_role d m n _, rfl, rfl, ?_, fun n => ?_⟩
    · rw [Device.setRole_eq]; exact Device.freedFor_mode d m _
    · rw [Device.setRole_eq]; exact Device.freedFor_portState d m n _
  unfold Device.abort
  generalize ((d.setRole m (d.restRole m)).setBar m d.ctl.handoff.backoff).endHandoff = e at ended
  exact (ended.then (f := e.raise _ _) rfl rfl rfl rfl rfl).recomputed

/-- R60: a hand-off begins. -/
theorem Device.beginHandoff_reseats (d : Device) (n : PortId) (dir : Direction) (k : Nat) (run : Option Nat) :
    d.Reseats (d.beginHandoff n dir k run) (fun m => if m = n then .dest else d.role m) (some n) .prepare where
  roles m := by rw [Device.beginHandoff_eq]; exact PerPort.get_set_eq _ n m _
  dest := by rw [Device.beginHandoff_eq]; rfl
  state := by rw [Device.beginHandoff_eq]; rfl
  mode := by rw [Device.beginHandoff_eq]; rfl
  ports m := by rw [Device.beginHandoff_eq]; rfl

/-! ### The condition after a change of role -/

theorem Device.standbyRole_ne_dest (d : Device) (m : PortId) : d.standbyRole m ≠ .dest := by
  rw [Device.standbyRole_eq]
  split <;> exact Role.noConfusion

theorem Device.restRole_ne_dest (d : Device) (m : PortId) : d.restRole m ≠ .dest := by
  rw [Device.restRole_eq]
  split
  · exact d.standbyRole_ne_dest m
  · exact Role.noConfusion

/-- The port that gives up ACTIVE may be the one that reports, and the port that takes it is LINKED. -/
theorem Device.Reseats.seated_of_active {d e : Device} {a n : PortId} {r : PortId → Prop} (h : d.Seated r)
    (he : d.Reseats e (fun m => if m = n then .active else if m = a then d.restRole a else d.role m) none .steady)
    (active : d.role a = .active) (reports : ∀ m, r m → m = a) (linked : d.mode = .streaming → (d.port n).state = .linked)
    (dest : ∀ m, d.role m = .dest → m = n) : e.AllSeated where
  oneActive := by
    have only (m : PortId) (hm : e.role m = .active) : m = n := by
      rw [he.roles] at hm
      by_contra other
      rw [if_neg other] at hm
      split at hm
      · exact d.restRole_ne_active a hm
      · next hne => exact hne (h.oneActive m a hm active)
    exact fun m m' hm hm' => (only m hm).trans (only m' hm').symm
  dest m := by
    rw [he.roles, he.dest]
    refine iff_of_false ?_ nofun
    split
    · exact Role.noConfusion
    · next other =>
      split
      · exact d.restRole_ne_dest a
      · exact fun hm => other (dest m hm)
  source _ := by
    rw [he.state]
    exact iff_of_true ⟨n, by rw [he.roles, if_pos rfl]⟩ nofun
  handoff := by
    rw [he.state, ← Option.isSome_map (f := HandoffContext.dest), he.dest]
    rfl
  linkless hm m _ hl := by
    rw [he.mode] at hm
    have none : (d.port m).hasLink = false := by rw [ModulePort.hasLink, ← he.ports]; exact hl
    rw [he.roles]
    split
    · next hn =>
      rw [hn, ModulePort.hasLink_of_linked (linked hm)] at none
      cases none
    · split
      · next ha => rw [ha] at none; exact Device.restRole_of_unlinked none
      · next ha => exact h.linkless hm m (mt (reports m) ha) none
  destLinked _ m _ hm := by
    rw [he.roles] at hm
    split at hm
    · cases hm
    · next other =>
      split at hm
      · exact absurd hm (d.restRole_ne_dest a)
      · exact absurd (dest m hm) other

/-- R73: a LINKED port becomes ACTIVE where none was. -/
theorem Device.Reseats.seated_of_first {d e : Device} {n : PortId} (h : d.AllSeated)
    (he : d.Reseats e (fun m => if m = n then .active else d.role m) none .steady)
    (inactive : ∀ m, d.role m ≠ .active) (context : d.planner.context = none)
    (linked : (d.port n).state = .linked) : e.AllSeated where
  oneActive := by
    have only (m : PortId) (hm : e.role m = .active) : m = n := by
      rw [he.roles] at hm
      by_contra other
      rw [if_neg other] at hm
      exact inactive m hm
    exact fun m m' hm hm' => (only m hm).trans (only m' hm').symm
  dest m := by
    rw [he.roles, he.dest]
    refine iff_of_false ?_ nofun
    split
    · exact Role.noConfusion
    · exact h.role_ne_dest context m
  source _ := by
    rw [he.state]
    exact iff_of_true ⟨n, by rw [he.roles, if_pos rfl]⟩ nofun
  handoff := by
    rw [he.state, ← Option.isSome_map (f := HandoffContext.dest), he.dest]
    rfl
  linkless hm m _ hl := by
    have unlinked : (d.port m).hasLink = false := by rw [ModulePort.hasLink, ← he.ports]; exact hl
    rw [he.roles]
    split
    · next hn =>
      rw [hn, ModulePort.hasLink_of_linked linked] at unlinked
      cases unlinked
    · exact h.linkless (he.mode ▸ hm) m id unlinked
  destLinked _ m _ hm := by
    rw [he.roles] at hm
    split at hm
    · cases hm
    · exact absurd hm (h.role_ne_dest context m)

/-- R69, R70: the DEST, which may be the port that reports, gives up its role. -/
theorem Device.Reseats.seated_of_ended {d e : Device} {m : PortId} {r : PortId → Prop} (h : d.Seated r)
    (he : d.Reseats e (fun n => if n = m then d.restRole m else d.role n) none .steady)
    (dest : d.role m = .dest) (reports : ∀ n, r n → n = m) : e.AllSeated where
  oneActive := by
    have kept (n : PortId) (hn : e.role n = .active) : d.role n = .active := by
      rw [he.roles] at hn
      split at hn
      · exact absurd hn (d.restRole_ne_active m)
      · exact hn
    exact fun n n' hn hn' => h.oneActive n n' (kept n hn) (kept n' hn')
  dest n := by
    rw [he.roles, he.dest]
    refine iff_of_false ?_ nofun
    split
    · exact d.restRole_ne_dest m
    · next other =>
      intro hn
      have same := (h.dest m).mp dest
      rw [(h.dest n).mp hn] at same
      exact other (Option.some.inj same)
  source hm := by
    rw [he.state]
    rw [he.mode] at hm
    have context : d.planner.context ≠ none := fun hc => h.role_ne_dest hc m dest
    obtain ⟨a, ha⟩ := (h.source hm).mpr (h.sourced context)
    refine iff_of_true ⟨a, ?_⟩ nofun
    rw [he.roles, if_neg]
    · exact ha
    · rintro rfl
      rw [dest] at ha
      cases ha
  handoff := by
    rw [he.state, ← Option.isSome_map (f := HandoffContext.dest), he.dest]
    rfl
  linkless hm n _ hl := by
    have none : (d.port n).hasLink = false := by rw [ModulePort.hasLink, ← he.ports]; exact hl
    rw [he.roles]
    split
    · next hn => rw [hn] at none; exact Device.restRole_of_unlinked none
    · next hn => exact h.linkless (he.mode ▸ hm) n (mt (reports n) hn) none
  destLinked _ n _ hn := by
    rw [he.roles] at hn
    split at hn
    · exact absurd hn (d.restRole_ne_dest m)
    · next other =>
      have same := (h.dest m).mp dest
      rw [(h.dest n).mp hn] at same
      exact absurd (Option.some.inj same) other

/-- R60: a LINKED port that is not ACTIVE becomes DEST. -/
theorem Device.Reseats.seated_of_begun {d e : Device} {n : PortId} (h : d.AllSeated)
    (he : d.Reseats e (fun m => if m = n then .dest else d.role m) (some n) .prepare)
    (source : d.planner.state ≠ some .noSource) (context : d.planner.context = none) (other : d.role n ≠ .active)
    (linked : (d.port n).state = .linked) : e.AllSeated where
  oneActive := by
    have kept (m : PortId) (hm : e.role m = .active) : d.role m = .active := by
      rw [he.roles] at hm
      split at hm
      · cases hm
      · exact hm
    exact fun m m' hm hm' => h.oneActive m m' (kept m hm) (kept m' hm')
  dest m := by
    rw [he.roles, he.dest, Option.some.injEq]
    split
    · next hm => exact iff_of_true rfl hm.symm
    · next hm => exact iff_of_false (h.role_ne_dest context m) (Ne.symm hm)
  source hm := by
    rw [he.state]
    rw [he.mode] at hm
    obtain ⟨a, ha⟩ := (h.source hm).mpr source
    refine iff_of_true ⟨a, ?_⟩ nofun
    rw [he.roles, if_neg]
    · exact ha
    · rintro rfl
      exact other ha
  handoff := by
    rw [he.state, ← Option.isSome_map (f := HandoffContext.dest), he.dest]
    rfl
  linkless hm m _ hl := by
    have none : (d.port m).hasLink = false := by rw [ModulePort.hasLink, ← he.ports]; exact hl
    rw [he.roles]
    split
    · next hn =>
      rw [hn, ModulePort.hasLink_of_linked linked] at none
      cases none
    · exact h.linkless (he.mode ▸ hm) m id none
  destLinked _ m _ hm := by
    rw [he.ports]
    rw [he.roles] at hm
    split at hm
    · next hn => rw [hn]; exact linked
    · exact absurd hm (h.role_ne_dest context m)

/-- R72: the ACTIVE port, the one that reports, becomes COLD, and none is ACTIVE. -/
theorem Device.Reseats.seated_of_lost {d e : Device} {m : PortId} (h : d.Seated (· = m))
    (he : d.Reseats e (fun n => if n = m then .cold else d.role n) none .noSource) (active : d.role m = .active)
    (context : d.planner.context = none) : e.AllSeated := by
  have inactive (n : PortId) : e.role n ≠ .active := by
    rw [he.roles]
    split
    · exact Role.noConfusion
    · next other => exact fun hn => other (h.oneActive n m hn active)
  have notDest (n : PortId) : e.role n ≠ .dest := by
    rw [he.roles]
    split
    · exact Role.noConfusion
    · exact h.role_ne_dest context n
  refine ⟨fun n _ hn => absurd hn (inactive n), fun n => ?_, fun _ => ?_, ?_, fun hm n _ hl => ?_, fun _ n _ hn =>
    absurd hn (notDest n)⟩
  · rw [he.dest]
    exact iff_of_false (notDest n) nofun
  · rw [he.state]
    exact iff_of_false (fun ⟨n, hn⟩ => inactive n hn) (not_not.mpr rfl)
  · rw [he.state, ← Option.isSome_map (f := HandoffContext.dest), he.dest]
    rfl
  · have none : (d.port n).hasLink = false := by rw [ModulePort.hasLink, ← he.ports]; exact hl
    rw [he.roles]
    split
    · rfl
    · next other => exact h.linkless (he.mode ▸ hm) n other none

/-- R53, R54: a port that is neither ACTIVE nor DEST takes a role at rest that its link allows. -/
theorem Device.setRole_seated {d : Device} {m : PortId} (h : d.Seated (· = m)) {r : Role}
    (idle : d.role m ≠ .active ∧ d.role m ≠ .dest) (rest : r ≠ .active ∧ r ≠ .dest)
    (link : (d.port m).hasLink = false → r = .cold) : (d.setRole m r).AllSeated := by
  have role (n : PortId) : (d.setRole m r).role n = if n = m then r else d.role n := Device.setRole_role d m n r
  have mode : (d.setRole m r).mode = d.mode := by rw [Device.setRole_eq]; exact Device.freedFor_mode d m r
  have context : (d.setRole m r).planner.context = d.planner.context := by rw [Device.setRole_eq]
  have state : (d.setRole m r).planner.state = d.planner.state := by rw [Device.setRole_eq]
  have port (n : PortId) : ((d.setRole m r).port n).state = (d.port n).state := by
    rw [Device.setRole_eq]; exact Device.freedFor_portState d m n r
  have same (n : PortId) (st : Role) (was : d.role m ≠ st) (is : r ≠ st) :
      (d.setRole m r).role n = st ↔ d.role n = st := by
    rw [role]
    split
    · next hn => rw [hn]; exact iff_of_false is was
    · rfl
  have active (n : PortId) := same n .active idle.1 rest.1
  have dest (n : PortId) := same n .dest idle.2 rest.2
  refine ⟨fun n n' hn hn' => ?_, fun n => ?_, fun hm => ?_, ?_, fun hm n _ hl => ?_, fun hm n _ hn => ?_⟩
  · exact h.oneActive n n' ((active n).mp hn) ((active n').mp hn')
  · rw [context]
    exact (dest n).trans (h.dest n)
  · simp only [active, state]
    exact h.source (mode ▸ hm)
  · rw [context, state]
    exact h.handoff
  · have none : (d.port n).hasLink = false := by rw [ModulePort.hasLink, ← port]; exact hl
    rw [role]
    split
    · next hn => rw [hn] at none; exact link none
    · next hn => exact h.linkless (mode ▸ hm) n hn none
  · rw [port]
    have was := (dest n).mp hn
    refine h.destLinked (mode ▸ hm) n ?_ was
    rintro rfl
    exact idle.2 was

end Sys2Proof.Machine
end

section
/-! PROOFS. The reports of the ports, the outcomes of frames and the evaluation keep the roles coherent, and so does every
step (R53, R54, R59 to R61, R70 to R73), for O59. -/

namespace Sys2Proof.Machine

open Sys2Proof

/-! ### Reports (R54, R70 to R72) -/

/-- The condition reads the links in STREAMING alone. -/
theorem Device.Seated.of_not_streaming {d : Device} {r : PortId → Prop} (h : d.Seated r) (hm : d.mode ≠ .streaming) :
    d.AllSeated :=
  ⟨h.oneActive, h.dest, h.source, h.handoff, fun streaming => absurd streaming hm, fun streaming => absurd streaming hm⟩

theorem Device.reportLoss_seated {d : Device} {m : PortId} {r : LossReport} (h : d.Seated (· = m))
    (reports : d.Reporting m r) : (d.reportLoss m r).AllSeated := by
  by_cases streaming : d.mode = .streaming
  swap
  · rw [Device.reportLoss.eq_def, if_pos streaming]
    exact h.of_not_streaming streaming
  have unlinked : (d.port m).state ≠ .linked := fun linked => by
    cases r with
    | stalled =>
      have stalled : (d.port m).state = .stalled := reports
      rw [linked] at stalled
      cases stalled
    | down cause =>
      have none : (d.port m).hasLink = false := reports
      rw [ModulePort.hasLink_of_linked linked] at none
      cases none
  have other {n : PortId} (linked : (d.port n).state = .linked) : n ≠ m := fun same => unlinked (same ▸ linked)
  rw [Device.reportLoss_of_streaming streaming]
  split
  · next c active context =>
    have role : d.role c.dest = .dest := (h.dest c.dest).mpr (by rw [context]; rfl)
    have apart : c.dest ≠ m := fun same => by rw [same, active] at role; cases role
    have linked := h.destLinked streaming c.dest apart role
    refine Device.Reseats.seated_of_active h (Device.changeActive_reseats d m c.dest _ _).recomputed active (fun _ => id)
      (fun _ => linked) fun n hn => ?_
    have same := (h.dest n).mp hn
    rw [context] at same
    exact (Option.some.inj same).symm
  · next active context =>
    unfold Device.loseActive
    split
    · next n hn =>
      exact Device.Reseats.seated_of_active h (Device.changeActive_reseats d m n _ _).recomputed active (fun _ => id)
        (fun _ => Device.fallbackChoice_linked hn) fun q hq => absurd hq (h.role_ne_dest context q)
    · cases r with
      | stalled =>
        have stalled : (d.port m).state = .stalled := reports
        refine d.recomputeApplied_seatsHold.seated (h.settle (fun _ none => ?_) fun _ hd => ?_)
        · rw [(ModulePort.hasLink_iff _).mpr (.inr stalled)] at none
          cases none
        · rw [active] at hd
          cases hd
      | down cause =>
        have lost : d.Reseats ((d.setRole m .cold).onPlanner fun p => { p with state := some .noSource, context := none })
            (fun n => if n = m then .cold else d.role n) none .noSource := by
          refine ⟨fun n => Device.setRole_role d m n _, rfl, rfl, ?_, fun n => ?_⟩
          · rw [Device.setRole_eq]; exact Device.freedFor_mode d m _
          · rw [Device.setRole_eq]; exact Device.freedFor_portState d m n _
        generalize (d.setRole m .cold).onPlanner (fun p => { p with state := some .noSource, context := none }) = e at lost
        exact Device.Reseats.seated_of_lost h (lost.then (f := e.raise _ _) rfl rfl rfl rfl rfl).recomputed active context
  · next dest => exact Device.Reseats.seated_of_ended h (d.abort_reseats m r) dest fun _ => id
  · next notDest handsOff holdsOn =>
    have idle : d.role m ≠ .active ∧ d.role m ≠ .dest := by
      refine ⟨fun active => ?_, notDest⟩
      cases hc : d.planner.context with
      | none => exact holdsOn active hc
      | some c => exact handsOff c active hc
    cases r with
    | stalled =>
      have stalled : (d.port m).state = .stalled := reports
      refine h.settle (fun _ none => ?_) fun _ hd => absurd hd idle.2
      rw [(ModulePort.hasLink_iff _).mpr (.inr stalled)] at none
      cases none
    | down cause =>
      exact Device.SeatsHold.seated (Device.recomputeApplied_seatsHold _)
        (Device.setRole_seated h idle ⟨Role.noConfusion, Role.noConfusion⟩ fun _ => rfl)

/-- R54: a port that has just become LINKED takes its standby role. -/
theorem Device.reportLinked_seated {d : Device} {m : PortId} (h : d.AllSeated)
    (idle : d.mode = .streaming → d.role m = .cold) (linked : (d.port m).state = .linked) :
    (d.reportLinked m).AllSeated := by
  unfold Device.reportLinked
  split
  · next streaming =>
    have cold := idle streaming
    refine Device.SeatsHold.seated (Device.recomputeApplied_seatsHold _) (Device.setRole_seated (h.reporting _) ?_
      ⟨d.standbyRole_ne_active m, d.standbyRole_ne_dest m⟩ fun none => ?_)
    · rw [cold]
      exact ⟨Role.noConfusion, Role.noConfusion⟩
    · rw [ModulePort.hasLink_of_linked linked] at none
      cases none
  · exact h

/-! ### Ports taken down -/

theorem Device.AllSeated.takeDown {d : Device} (h : d.AllSeated) (m : PortId) (st : PortState) :
    (d.takeDown m st).Seated (· = m) :=
  (Device.freeUnheld_seatsHold _ m).seated (h.onPort m fun q =>
    { q with state := st, lanes := none, pendingFsync := none, expectations := [] })

theorem Device.takeDown_portState (d : Device) (m : PortId) (st : PortState) : ((d.takeDown m st).port m).state = st := by
  rw [Device.takeDown_eq, Device.onPort_port]

theorem ModulePort.hasLink_of_down {q : ModulePort} (h : q.state ≠ .linked ∧ q.state ≠ .stalled) : q.hasLink = false :=
  Bool.eq_false_iff.mpr fun link => (q.hasLink_iff.mp link).elim h.1 h.2

/-- R54, R107: the DOWN report of a port that had a link; one that had none is COLD already. -/
theorem Device.reportDownIf_seated {d : Device} {m : PortId} (h : d.Seated (· = m)) (down : (d.port m).hasLink = false)
    {linked : Bool} (cold : linked = false → d.mode = .streaming → d.role m = .cold) (cause : DownCause) :
    (d.reportDownIf m linked cause).AllSeated := by
  unfold Device.reportDownIf
  split
  · exact Device.reportLoss_seated h down
  · next none =>
    have role := cold (Bool.eq_false_iff.mpr none)
    exact h.settle (fun streaming _ => role streaming) fun streaming dest => by rw [role streaming] at dest; cases dest

/-- R107: a port taken down, the report still to come. -/
theorem Device.takeDown_cold {d : Device} (h : d.AllSeated) (m : PortId) (st : PortState)
    (link : (d.port m).hasLink = false) (streaming : (d.takeDown m st).mode = .streaming) :
    (d.takeDown m st).role m = .cold :=
  h.linkless streaming m id link

theorem Device.bringUp_seated {d : Device} (h : d.AllSeated) (m : PortId) (a : Allowance) (cause : DownCause) :
    (d.bringUp m a cause).AllSeated := by
  have taken := h.takeDown m .resetting
  have state := d.takeDown_portState m .resetting
  have cold := Device.takeDown_cold h m .resetting
  unfold Device.bringUp
  dsimp only
  generalize d.takeDown m .resetting = e at taken state cold
  refine Device.reportDownIf_seated (Device.SeatsHold.seated (Device.onPort_seatsHold e m _) taken) ?_ cold cause
  rw [Device.onPort_port]
  exact ModulePort.hasLink_of_down (by simp [state])

theorem Device.disable_seated {d : Device} (h : d.AllSeated) (m : PortId) : (d.disable m).AllSeated := by
  refine Device.reportDownIf_seated (h.takeDown m .off) ?_ (Device.takeDown_cold h m .off) _
  exact ModulePort.hasLink_of_down (by simp [d.takeDown_portState m .off])

/-- R111: the last seek window ends in DEAD. -/
theorem Device.endSeekWindow_seated {d : Device} (h : d.AllSeated) {m : PortId} (seeking : (d.port m).state = .seeking) :
    (d.endSeekWindow m).AllSeated := by
  have unlinked : (d.port m).hasLink = false := ModulePort.hasLink_of_down (by simp [seeking])
  unfold Device.endSeekWindow
  split
  · exact (Device.onPort_seatsHold d m _).seated h
  · refine (Device.raise_seatsHold _ _ _).seated ((h.takeDown m .dead).settle ?_ ?_)
    · exact fun streaming _ => Device.takeDown_cold h m .dead unlinked streaming
    · intro streaming dest
      rw [Device.takeDown_cold h m .dead unlinked streaming] at dest
      cases dest

/-! ### Probes and outcomes -/

theorem Device.probeCheck_seatsHold (d : Device) (zoom : Nat) : d.SeatsHold (d.probeCheck zoom) := by
  unfold Device.probeCheck
  split
  · exact .of_planner rfl rfl fun _ => rfl
  · exact .refl d

theorem Device.frameReady_seatsHold (d : Device) (m : PortId) : d.SeatsHold (d.frameReady m) := by
  unfold Device.frameReady
  split
  · exact Device.probeCheck_seatsHold d _
  · exact .refl d

/-- R62: an outcome of the DEST changes its counts, and PREPARE becomes PROBE. -/
theorem Device.takeOutcome_seatsHold (d : Device) (m : PortId) (o : FrameOutcome) : d.SeatsHold (d.takeOutcome m o) := by
  unfold Device.takeOutcome
  split
  · next c hs hc =>
    have counted (n : Nat) : d.SeatsHold (d.onPlanner fun p => { p with context := some { c with prepared := n } }) :=
      Device.onPlanner_seatsHold d _ rfl (by rw [hc]; rfl) rfl
    split
    · exact .refl d
    · split
      · split
        · exact counted _
        · refine .trans ?_ (Device.probeCheck_seatsHold _ _)
          exact ⟨fun _ => rfl, by rw [hc]; rfl, by rw [hs]; exact iff_of_false nofun nofun, by rw [hs]; rfl, rfl,
            fun _ => id, fun _ => id⟩
      · exact counted 0
      · exact counted 0
      · exact counted 0
      · exact .refl d
  · exact .refl d

/-- An operation of the output side. -/
theorem Device.OutputKeeps.seatsHold {d e : Device} (h : d.OutputKeeps e) : d.SeatsHold e :=
  .of_eq (by rw [h.planner]) (by rw [h.planner]) (by rw [h.planner]) (by rw [Device.mode, h.ctl, Device.mode])
    fun m => by rw [Device.port, h.ports]; rfl

/-- R66, R89: the completion of a probe, taken in PROBE or discarded. -/
theorem Device.completeProbe_seatsHold (d : Device) (c : ProbeContext) (q : ProbeMeasure) :
    d.SeatsHold (d.completeProbe c q) := by
  have released := ((Device.releaseSlot_outputKeeps d c.activeSlot).trans
    (Device.releaseSlot_outputKeeps _ c.destSlot)).seatsHold
  unfold Device.completeProbe
  generalize (d.releaseSlot c.activeSlot).releaseSlot c.destSlot = e at released
  have heard : e.SeatsHold (if e.takesProbe c then e.takeProbe q else e) := by
    split
    · next takes =>
      obtain ⟨h, hs, hc, -⟩ := (e.takesProbe_iff c).mp takes
      simp only [Device.takeProbe, hc]
      exact ⟨fun _ => rfl, by rw [hc]; rfl, by rw [hs]; exact iff_of_false nofun nofun, by rw [hs]; rfl, rfl,
        fun _ => id, fun _ => id⟩
    · exact .refl e
  exact released.trans (heard.trans (.of_planner rfl rfl fun _ => rfl))

/-! ### Frames -/

theorem Device.onSlot_seatsHold (d : Device) (id : Nat) (f : Slot → Slot) : d.SeatsHold (d.onSlot id f) :=
  .of_planner rfl rfl fun _ => rfl

theorem Device.frameFault_seatsHold (d : Device) (m : PortId) (k : Option Nat) (r : FaultReason) :
    d.SeatsHold (d.frameFault m k r) :=
  (Device.raise_seatsHold d _ _).trans (Device.onPort_seatsHold _ m _)

/-- R120: a bad period, with the stall it may end in. -/
theorem Device.badPeriod_seated {d : Device} (h : d.AllSeated) (m : PortId) (k : Nat) (why : BadReason) :
    (d.badPeriod m k why).AllSeated := by
  have counted := (Device.onPort_seatsHold d m fun q =>
    { q with badPeriods := min 15 (q.badPeriods + 1), goodRun := 0 }).seated h
  have heard (o : FrameOutcome) := (Device.takeOutcome_seatsHold _ m o).seated counted
  unfold Device.badPeriod
  dsimp only
  split_ifs
  · refine Device.reportLoss_seated (Device.SeatsHold.seated (Device.raise_seatsHold _ _ _)
      (Device.AllSeated.onPort (heard _) m fun q => { q with state := .stalled, stallAge := 0 })) ?_
    show (Device.port (Device.raise _ _ _) m).state = .stalled
    rw [Device.raise_port, Device.onPort_port]
  · exact heard _

theorem Device.countMissed_seated {d : Device} (h : d.AllSeated) (m : PortId) (k : Nat) : (d.countMissed m k).AllSeated :=
  Device.badPeriod_seated ((Device.onPort_seatsHold d m _).seated h) m k _

theorem Device.faultFill_seated {d : Device} (h : d.AllSeated) (m : PortId) (f : Fill) (r : FaultReason) :
    (d.faultFill m f r).AllSeated := by
  have freed := ((Device.onSlot_seatsHold d f.slot Slot.free).trans
    (Device.onPort_seatsHold _ m fun q => { q with filling := none })).seated h
  unfold Device.faultFill
  exact Device.badPeriod_seated ((Device.frameFault_seatsHold _ m _ r).seated freed) m _ _

theorem Device.issueFsync_seated {d : Device} (h : d.AllSeated) (m : PortId) (e : Expectation) :
    (d.issueFsync m e).AllSeated := by
  have taken := (Device.onPort_seatsHold d m fun q => { q with pendingFsync := none }).seated h
  unfold Device.issueFsync
  dsimp only
  split
  · have pulsed := (Device.onPort_seatsHold _ m fun q =>
      { q with fsyncIssued := true, lastPulse := some e.issue }).seated taken
    split
    · exact Device.countMissed_seated pulsed m _
    · exact (Device.onPort_seatsHold _ m _).seated pulsed
  · exact Device.countMissed_seated taken m _

theorem Device.passDeadline_seated {d : Device} (h : d.AllSeated) (m : PortId) (e : Expectation)
    (rest : List Expectation) : (d.passDeadline m e rest).AllSeated :=
  Device.countMissed_seated ((Device.onPort_seatsHold d m _).seated h) m _

theorem Device.requestSlot_seatsHold (d : Device) (m : PortId) (h : FrameHeader) (e : Expectation) :
    d.SeatsHold (d.requestSlot m h e) := by
  have dropped : d.SeatsHold (((d.raise .frameDropped (EventDetail.ofPort m (some e.period) none)).onPort m fun q =>
      { q with dropped := bump q.dropped }).takeOutcome m .dropped) :=
    ((Device.raise_seatsHold d _ _).trans (Device.onPort_seatsHold _ m _)).trans (Device.takeOutcome_seatsHold _ m _)
  by_cases below : d.ownedCount m < d.quota m
  · cases hx : d.lowestFree with
    | some x =>
      rw [Device.requestSlot_of_free h e below hx]
      exact (Device.onSlot_seatsHold d _ _).trans (Device.onPort_seatsHold _ m _)
    | none =>
      simp only [Device.requestSlot, Device.allocate, below, hx, if_true]
      exact dropped
  · simp only [Device.requestSlot, Device.allocate, below, if_false]
    exact dropped

theorem Device.matchFrame_seated {d : Device} (seated : d.AllSeated) (m : PortId) (h : FrameHeader) :
    (d.matchFrame m h).AllSeated := by
  have headed (e : Device) : e.SeatsHold (e.takeHeader m h) := Device.onPort_seatsHold e m _
  unfold Device.matchFrame
  dsimp only
  split
  · split_ifs
    · exact (Device.onPort_seatsHold d m _).seated seated
    · exact seated
    · exact ((headed d).trans (Device.frameFault_seatsHold _ m _ _)).seated seated
    · exact (Device.frameFault_seatsHold d m _ _).seated seated
  · next a rest _ =>
    have consumed := (Device.onPort_seatsHold d m fun q => { q with expectations := rest }).seated seated
    split_ifs
    · exact Device.badPeriod_seated ((Device.frameFault_seatsHold _ m _ _).seated consumed) m _ _
    · exact Device.badPeriod_seated (((headed _).trans (Device.frameFault_seatsHold _ m _ _)).seated consumed) m _ _
    · exact ((headed _).trans (Device.requestSlot_seatsHold _ m h a)).seated consumed

/-- R112: a header in SEEKING links the port, faults or is ignored. -/
theorem Device.seekHeader_seated {d : Device} (seated : d.AllSeated) {m : PortId} (seeking : (d.port m).state = .seeking)
    (h : FrameHeader) : (d.seekHeader m h).AllSeated := by
  have unlinked : (d.port m).hasLink = false := ModulePort.hasLink_of_down (by simp [seeking])
  unfold Device.seekHeader
  split
  · exact seated
  · next lanes _ =>
    split_ifs
    · exact seated
    · exact (Device.frameFault_seatsHold d m _ _).seated seated
    · refine Device.reportLinked_seated (Device.SeatsHold.seated (Device.raise_seatsHold _ _ _)
        ((Device.onPort_seatsHold_of_link d m _ (.inl rfl)).seated seated)) (fun streaming => ?_) ?_
      · exact seated.linkless streaming m id unlinked
      · rw [Device.raise_port, Device.onPort_port]

theorem Device.takeFrameStart_seated {d : Device} (seated : d.AllSeated) (m : PortId) (h : FrameHeader) :
    (d.takeFrameStart m h).AllSeated := by
  by_cases link : (d.port m).state = .linked ∨ (d.port m).state = .stalled
  · by_cases streaming : d.mode = .streaming
    · rw [Device.takeFrameStart_of_link h link streaming]
      split
      · exact Device.matchFrame_seated (Device.faultFill_seated seated m _ _) m h
      · exact Device.matchFrame_seated seated m h
    · rw [Device.takeFrameStart_outside h link streaming]
      exact seated
  · unfold Device.takeFrameStart
    split
    · next seeking => exact Device.seekHeader_seated seated seeking h
    · exact seated
    · exact seated
    · exact seated
    · next hs => exact absurd (.inl hs) link
    · next hs => exact absurd (.inr hs) link

/-- R121: a good frame, with the recovery it may end in. -/
theorem Device.goodPeriod_seatsHold (d : Device) (m : PortId) (k : Nat) : d.SeatsHold (d.goodPeriod m k) := by
  have counted := Device.onPort_seatsHold d m fun q => { q with badPeriods := 0, goodRun := min 2 (q.goodRun + 1) }
  unfold Device.goodPeriod
  dsimp only
  split
  · split
    · exact (counted.trans (Device.onPort_seatsHold_of_link _ m _ (.inl rfl))).trans (Device.raise_seatsHold _ _ _)
    · exact counted.trans (Device.onPort_seatsHold _ m _)
  · exact counted

theorem Device.completeFrame_seatsHold (d : Device) (m : PortId) (f : Fill) (s : Slot) :
    d.SeatsHold (d.completeFrame m f s) := by
  have stored : d.SeatsHold (((d.onSlot f.slot fun x => { x with state := .ready, useCount := 0 }).onPort m fun q =>
      { q with filling := none }).supersede m) :=
    ((Device.onSlot_seatsHold d _ _).trans (Device.onPort_seatsHold _ m _)).trans
      (Device.supersede_outputKeeps _ m).seatsHold
  have heard := stored.trans ((Device.frameReady_seatsHold _ m).trans ((Device.onPort_seatsHold _ m fun q =>
    { q with newestExposure := s.exposure, good := bump q.good }).trans
      ((Device.goodPeriod_seatsHold _ m (s.period.getD 0)).trans
        (Device.takeOutcome_seatsHold _ m (.good s.settled)))))
  unfold Device.completeFrame
  dsimp only
  split
  · exact heard.trans (Device.onSlot_seatsHold _ _ _)
  · exact heard

theorem Device.takeFrameEnd_seated {d : Device} (h : d.AllSeated) (m : PortId) : (d.takeFrameEnd m).AllSeated := by
  unfold Device.takeFrameEnd
  split
  · exact h
  · split
    · exact h
    · split
      · exact Device.faultFill_seated h m _ _
      · exact (Device.completeFrame_seatsHold d m _ _).seated h

theorem Device.advanceStall_seated {d : Device} (h : d.AllSeated) (m : PortId) : (d.advanceStall m).AllSeated := by
  unfold Device.advanceStall
  split
  · exact Device.bringUp_seated h m _ _
  · split
    · exact (Device.onPort_seatsHold d m _).seated h
    · exact h

end Sys2Proof.Machine
end

section
/-! PROOFS. The planning, the start and the stop of a stream and the resets keep the roles coherent, and so does every step
(R53, R59 to R61, R63 to R67, R73, R79, R80), for O59. -/

namespace Sys2Proof.Machine

open Sys2Proof

/-! ### The evaluation -/

theorem Device.role_of_activePort {d : Device} {a : PortId} (h : d.activePort = some a) : d.role a = .active :=
  of_decide_eq_true (List.find?_some (p := fun m => decide (d.role m = .active)) h)

/-- R59 to R61: the STEADY evaluation. -/
theorem Device.evaluateSteady_seated {d : Device} (h : d.AllSeated) (steady : d.planner.state = some .steady) (k : Nat)
    (run : Option Nat) : (d.evaluateSteady k run).AllSeated := by
  have context := h.no_context (.inl steady)
  unfold Device.evaluateSteady
  split
  · exact h
  · next a ha =>
    have active := Device.role_of_activePort ha
    split
    · split
      · next n hn =>
        exact Device.Reseats.seated_of_active h (d.changeActive_reseats a n _ k) active (fun _ => False.elim)
          (fun _ => Device.fallbackChoice_linked hn) fun m hm => absurd hm (h.role_ne_dest context m)
      · exact h
    · split
      · split
        · next n dir hn =>
          split
          · refine Device.Reseats.seated_of_begun h (d.beginHandoff_reseats n dir k run) (by rw [steady]; exact nofun)
              context (fun other => ?_) (Device.destination_linked hn)
            exact Device.destination_ne hn (h.oneActive n a other active)
          · exact h
        · exact h
      · exact h

/-- R69: an abandon at a planning. -/
theorem Device.abandon_seated {d : Device} (h : d.AllSeated) (reason : AbandonReason) (k : Nat) :
    (d.abandon reason k).AllSeated := by
  cases hc : d.planner.context with
  | none => rw [Device.abandon_of_no_context hc]; exact h
  | some c =>
    have dest : d.role c.dest = .dest := (h.dest c.dest).mpr (by rw [hc]; rfl)
    exact Device.Reseats.seated_of_ended h (Device.abandon_reseats hc reason k) dest fun _ => False.elim

theorem Device.evaluatePrepare_seated {d : Device} (h : d.AllSeated) {c : HandoffContext}
    (hc : d.planner.context = some c) (k : Nat) : (d.evaluatePrepare c k).AllSeated := by
  have raised : (d.onPlanner fun p => { p with context := some { c with elapsed := c.elapsed + 1 } }).AllSeated :=
    (Device.onPlanner_seatsHold d _ rfl (by rw [hc]; rfl) rfl).seated h
  unfold Device.evaluatePrepare
  dsimp only
  split_ifs
  · exact Device.abandon_seated raised _ k
  · exact Device.abandon_seated raised _ k
  · exact raised

/-- R67: the BLEND evaluation, with the commit after the last step. -/
theorem Device.evaluateBlend_seated {d : Device} (h : d.AllSeated) (streaming : d.mode = .streaming)
    (blend : d.planner.state = some .blend) {c : HandoffContext} (hc : d.planner.context = some c) (k : Nat)
    (run : Option Nat) : (d.evaluateBlend c k run).AllSeated := by
  unfold Device.evaluateBlend
  split
  · exact (Device.onPlanner_seatsHold d _ rfl (by rw [hc]; rfl) rfl).seated h
  · obtain ⟨a, ha, active⟩ := Device.activePort_of_coherent ((d.allSeated_iff).mp h).1 streaming
      (by rw [blend]; exact nofun)
    have dest : d.role c.dest = .dest := (h.dest c.dest).mpr (by rw [hc]; rfl)
    have reseats := d.changeActive_reseats a c.dest .blend k
    rw [ha]
    refine Device.evaluateSteady_seated (Device.Reseats.seated_of_active h reseats active (fun _ => False.elim)
      (fun _ => h.destLinked streaming c.dest id dest) fun m hm => ?_) reseats.state k run
    have same := (h.dest m).mp hm
    rw [hc] at same
    exact (Option.some.inj same).symm

/-- R65: the PROBE evaluation, with the skip to BLEND at the deferral limit. -/
theorem Device.evaluateProbe_seated {d : Device} (h : d.AllSeated) (streaming : d.mode = .streaming)
    (probe : d.planner.state = some .probe) {c : HandoffContext} (hc : d.planner.context = some c) (k : Nat)
    (run : Option Nat) (met : Bool) : (d.evaluateProbe c k run met).AllSeated := by
  unfold Device.evaluateProbe
  split
  · exact Device.abandon_seated h _ k
  · have checked := (d.probeCheck_seatsHold (d.appliedIn .probe)).seated h
    have mode := (d.probeCheck_seatsHold (d.appliedIn .probe)).mode.trans streaming
    have planner := d.probeCheck_planner (d.appliedIn .probe)
    generalize d.probeCheck (d.appliedIn .probe) = e at checked mode planner
    rw [← planner] at probe hc
    unfold Device.deferProbe
    split
    · split
      · exact (Device.onPlanner_seatsHold e _ rfl (by rw [hc]; rfl) rfl).seated checked
      · have skipped (x : HandoffContext) (hx : x.dest = c.dest) :
            e.SeatsHold (e.onPlanner fun p => { p with state := some .blend, context := some x }) :=
          ⟨fun _ => rfl, by rw [hc, Option.map_some, ← hx]; rfl, by rw [probe]; exact iff_of_false nofun nofun,
            by rw [probe]; rfl, rfl, fun _ => id, fun _ => id⟩
        have blends := (skipped { c with deferral := c.deferral + 1, residual := some Residual.skip, step := 0 } rfl).seated
          checked
        exact Device.evaluateBlend_seated blends mode rfl rfl k run
    · exact checked

theorem Device.preferredCandidate_linked {d : Device} {n : PortId} (h : d.preferredCandidate = some n) :
    (d.port n).state = .linked :=
  Device.isCandidate_linked (Device.preferred_portsWhere_mem h)

/-- R56: stage 3 in STREAMING. -/
theorem Device.evaluate_seated {d : Device} (h : d.AllSeated) (streaming : d.mode = .streaming) (k : Nat)
    (run : Option Nat) (met : Bool) : (d.evaluate k run met).AllSeated := by
  unfold Device.evaluate
  split
  · next steady => exact Device.evaluateSteady_seated h steady k run
  · next hc => exact Device.evaluatePrepare_seated h hc k
  · next probe hc => exact Device.evaluateProbe_seated h streaming probe hc k run met
  · next blend hc => exact Device.evaluateBlend_seated h streaming blend hc k run
  · next noSource =>
    unfold Device.evaluateNoSource
    split
    · next n hn =>
      have inactive (m : PortId) : d.role m ≠ .active := fun active =>
        (h.source (by rw [streaming]; rfl)).mp ⟨m, active⟩ noSource
      exact Device.Reseats.seated_of_first h (d.changeActive_none_reseats n _ k) inactive (h.no_context (.inr noSource))
        (Device.preferredCandidate_linked hn)
    · exact h
  · exact h

/-! ### The planning and the period start -/

theorem Device.countDown_seatsHold (d : Device) (k : Nat) : d.SeatsHold (d.countDown k) := by
  have counted := Device.onPlanner_seatsHold d
    (fun p => { p with bars := p.bars.map (· - 1), hold := p.hold - 1, guard := p.guard - 1 }) rfl rfl rfl
  unfold Device.countDown
  dsimp only
  split
  · exact counted.trans (Device.raise_seatsHold _ _ _)
  · exact counted

theorem Device.requestFsync_seatsHold (d : Device) (k : Nat) (m : PortId) : d.SeatsHold (d.requestFsync k m) := by
  unfold Device.requestFsync
  split
  · exact Device.onPort_seatsHold d m _
  · exact .refl d

theorem Device.plan_seated {d : Device} (h : d.AllSeated) (streaming : d.mode = .streaming) (k : Nat) (met : Bool) :
    (d.plan k met).AllSeated := by
  have stepped : d.SeatsHold { d with planner := d.planner.rampStep.1 } :=
    .of_eq (congrArg Planner.roles d.planner.rampStep_eq :)
      (congrArg (fun p : Planner => p.context.map HandoffContext.dest) d.planner.rampStep_eq :)
      (congrArg Planner.state d.planner.rampStep_eq :) rfl fun _ => rfl
  have counted := stepped.trans (Device.countDown_seatsHold _ k)
  have computed := Device.SeatsHold.seated (Device.recomputeApplied_seatsHold _)
    (Device.evaluate_seated (counted.seated h) (counted.mode.trans streaming) k d.planner.rampStep.2.1 met)
  have written (e : Device) : e.SeatsHold (e.writePlan k d.planner.rampStep.2.1) :=
    Device.onPlanner_seatsHold e _ rfl rfl rfl
  have requested (e : Device) (l : List PortId) : e.SeatsHold (l.foldl (Device.requestFsync · k) e) :=
    .foldl (Device.requestFsync · k) (fun e m => e.requestFsync_seatsHold k m) l e
  unfold Device.plan
  dsimp only
  split
  · exact (((Device.raise_seatsHold _ _ _).trans (written _)).trans (requested _ _)).seated computed
  · exact ((written _).trans (requested _ _)).seated computed

/-- R165: a period start, its period entered. -/
theorem Device.startPeriod_seated {d : Device} {k : Nat} (hk : d.nextPeriod = k) (met : Bool)
    (h : (d.enterPeriod k (k + 1)).AllSeated) (streaming : d.mode = .streaming) : (d.startPeriod met).AllSeated := by
  rw [Device.startPeriod_of_next hk]
  exact List.foldlRecOn (motive := Device.AllSeated) PortId.all Device.advanceStall
    (Device.plan_seated h streaming k met) fun _ he m _ => Device.advanceStall_seated he m

/-! ### Start, stop and resets -/

/-- An operation that leaves the View Planner, the mode and the ports. -/
theorem Device.AllSeated.of_planner {d e : Device} (h : d.AllSeated) (planner : e.planner = d.planner)
    (mode : e.mode = d.mode) (ports : e.ports = d.ports) : e.AllSeated :=
  Device.SeatsHold.seated (.of_planner planner mode fun m => by rw [Device.port, ports]; rfl) h

/-- R79: the session-start roles. -/
theorem Device.begun_seated {d : Device} {a : PortId} (linked : (d.port a).state = .linked) :
    (d.begun a).AllSeated where
  oneActive := by
    have only (m : PortId) (hm : (d.begun a).role m = .active) : m = a := by
      by_contra other
      exact Device.startRole_ne_active other ((d.begun_role a m).symm.trans hm)
    exact fun m n hm hn => (only m hm).trans (only n hn).symm
  dest m := by
    refine iff_of_false (fun hm => ?_) nofun
    rw [Device.begun_role, Device.startRole] at hm
    split_ifs at hm
    exact d.standbyRole_ne_dest m hm
  source _ := iff_of_true ⟨a, (d.begun_role a a).trans (d.startRole_self a)⟩ nofun
  handoff := rfl
  linkless _ m _ hl := by
    have none : (d.port m).hasLink = false := hl
    have unlinked : (d.port m).state ≠ .linked := fun hm => by
      rw [ModulePort.hasLink_of_linked hm] at none
      cases none
    rw [Device.begun_role, Device.startRole, if_neg unlinked, if_neg]
    exact fun same => unlinked (same ▸ linked)
  destLinked _ m _ hm := by
    rw [Device.begun_role, Device.startRole] at hm
    split_ifs at hm
    exact absurd hm (d.standbyRole_ne_dest m)

theorem Device.startStream_seated {d : Device} {a : PortId} (ha : d.preferredCandidate = some a) :
    (d.startStream a).AllSeated := by
  unfold Device.startStream
  refine Device.startPeriod_seated (k := 0) rfl false ?_ ?_
  · rw [Device.begun_eq]
    exact Device.begun_seated (Device.preferredCandidate_linked ha)
  · have mode := congrArg Device.mode (d.begun_eq a)
    exact mode

/-- A mode that is not STREAMING entered, the roles and the hand-off left. -/
theorem Device.AllSeated.of_entry {d e : Device} (h : d.AllSeated) (roles : e.planner.roles = d.planner.roles)
    (context : e.planner.context = d.planner.context) (state : e.planner.state = d.planner.state)
    (session : e.mode.inSession = true → d.mode.inSession = true) (mode : e.mode ≠ .streaming) : e.AllSeated := by
  have role (m : PortId) : e.role m = d.role m := congrArg (PerPort.get · m) roles
  refine ⟨?_, ?_, fun hm => ?_, by rw [context, state]; exact h.handoff, fun hm => absurd hm mode, fun hm => absurd hm mode⟩
  · simp only [role]; exact h.oneActive
  · simp only [role, context]; exact h.dest
  · simp only [role, state]; exact h.source (session hm)

/-- Outside STREAMING and STOPPING no port has a role and no hand-off state is. -/
theorem Device.AllSeated.of_vacant {d : Device} (roles : d.planner.roles = PerPort.all .none)
    (context : d.planner.context = none) (state : d.planner.state = none) (session : d.mode.inSession = false) :
    d.AllSeated := by
  have role (m : PortId) : d.role m = .none := by
    rw [Device.role, roles]
    cases m <;> rfl
  refine ⟨fun m _ hm => ?_, fun m => ?_, fun hm => ?_, by rw [context, state]; rfl, fun hm => ?_, fun hm => ?_⟩
  · rw [role] at hm; cases hm
  · rw [role, context]; exact iff_of_false nofun nofun
  · rw [session] at hm; cases hm
  · rw [hm] at session; cases session
  · rw [hm] at session; cases session

theorem Device.drainCheck_seated {d : Device} (h : d.AllSeated) : d.drainCheck.AllSeated := by
  unfold Device.drainCheck
  split
  · exact .of_vacant rfl rfl rfl rfl
  · exact h

/-- R69, R80, R169: STREAM_STOP. -/
theorem Device.stopStream_seated {d : Device} (h : d.AllSeated) (streaming : d.mode = .streaming) :
    d.stopStream.AllSeated := by
  have session : Mode.stopping.inSession = true → d.mode.inSession = true := fun _ => by rw [streaming]; rfl
  have abandoned := Device.abandon_seated h .stopped d.period
  have mode := ((d.abandon_keeps .stopped d.period).mode)
  rw [Device.stopStream_eq]
  refine Device.drainCheck_seated (abandoned.of_entry ?_ ?_ ?_ (fun _ => by rw [mode, streaming]; rfl) (by
    show Mode.stopping ≠ .streaming; decide))
  all_goals
    cases hc : d.planner.context with
    | none => simp [Device.stopActions, Device.plannerStopped, Device.abandon_of_no_context hc, hc]
    | some c => simp [Device.stopActions, Device.plannerStopped, Device.abandon_eq hc, hc]

/-! ### Every outcome of a step -/

theorem Device.setReply_seatsHold (d : Device) (p : CmdPort) (r : Reply) : d.SeatsHold (d.setReply p r) := by
  cases p <;> exact .of_planner rfl rfl fun _ => rfl

/-- Every owner keeps the roles coherent. -/
theorem Device.Owned.seated {i : Instr} {p : CmdPort} {d e : Device} (ho : d.Owned i p e) (h : d.AllSeated) :
    e.AllSeated := by
  have zoomed (f : Planner → Planner) (roles : (f d.planner).roles = d.planner.roles)
      (context : (f d.planner).context = d.planner.context) (state : (f d.planner).state = d.planner.state) :
      (d.onPlanner f).AllSeated := (Device.onPlanner_seatsHold d f roles (by rw [context]) state).seated h
  cases ho with
  | unchanged => exact h
  | causeRead => cases p <;> exact h.of_planner rfl rfl rfl
  | wake => exact h.of_entry rfl rfl rfl nofun nofun
  | sleep _ _ hm =>
    have down := Device.takeAllDown_portKeeps PortId.all d
    have planner := down.outside (by rw [hm]; decide)
    exact h.of_entry (congrArg Planner.roles planner :) (congrArg Planner.context planner :)
      (congrArg Planner.state planner :) nofun nofun
  | softReset => exact .of_vacant rfl rfl rfl rfl
  | portConfig _ _ _ m => exact (Device.onPort_seatsHold d m _).seated h
  | portEnable _ _ _ m => exact Device.bringUp_seated h m _ _
  | portDisable _ _ _ m => exact Device.disable_seated h m
  | calWrite => exact h.of_planner rfl rfl rfl
  | outputConfig => exact h.of_planner rfl rfl rfl
  | handoffConfig => exact h.of_planner rfl rfl rfl
  | zoomSet => exact zoomed _ rfl rfl rfl
  | zoomAppend => exact zoomed _ rfl rfl rfl
  | zoomReplace | zoomCancel =>
    unfold Device.dropRequests
    dsimp only
    split
    · exact (Device.raise_seatsHold _ _ _).seated (zoomed _ rfl rfl rfl)
    · exact zoomed _ rfl rfl rfl
  | hold => exact zoomed _ rfl rfl rfl
  | captureConfig => exact zoomed _ rfl rfl rfl
  | motionSample =>
    unfold Device.motionSample
    dsimp only
    split <;> exact h.of_planner rfl rfl rfl
  | streamStart _ _ a _ ha => exact Device.startStream_seated ha
  | streamStop _ _ hm => exact Device.stopStream_seated h hm
  | outputFence => exact h.of_planner rfl rfl rfl
  | eventConfig => cases p <;> exact h.of_planner rfl rfl rfl
  | ackEvents => cases p <;> exact h.of_planner rfl rfl rfl
  | clearFault => exact h.of_planner rfl rfl rfl

/-- Every outcome of a command or event keeps the roles coherent. -/
theorem Device.Move.seated {i : Instr} {d e : Device} (hm : d.Move i e) (h : d.AllSeated) : e.AllSeated := by
  cases hm with
  | unchanged => exact h
  | powerOn => exact .of_vacant rfl rfl rfl rfl
  | pinReset => exact .of_vacant rfl rfl rfl rfl
  | resetRelease => exact h.of_planner rfl rfl rfl
  | refused => exact (Device.setReply_seatsHold d _ _).seated h
  | answered _ _ _ _ e _ _ _ ho => exact (Device.setReply_seatsHold e _ _).seated (ho.seated h)
  | wakeComplete => exact h.of_entry rfl rfl rfl nofun nofun
  | softResetComplete => exact h.of_entry rfl rfl rfl nofun nofun
  | drainEnd => exact Device.drainCheck_seated h
  | startPeriod _ met _ _ hd =>
    simp only [Device.periodDue, Bool.and_eq_true, decide_eq_true_eq] at hd
    obtain ⟨⟨⟨streaming, -⟩, -⟩, -⟩ := hd
    exact Device.startPeriod_seated rfl met (h.of_planner rfl rfl rfl) streaming
  | autoReset m =>
    have entered : (d.enterPeriod d.nextPeriod d.nextPeriod).AllSeated := h.of_planner rfl rfl rfl
    exact Device.bringUp_seated entered m .spent .autoReset
  | issueFsync m x => exact Device.issueFsync_seated h m x
  | openSeek m _ hd =>
    simp only [Device.pulseDue, Bool.and_eq_true, decide_eq_true_eq] at hd
    exact (Device.onPort_seatsHold_of_link d m _ (.inr (ModulePort.hasLink_of_down (by simp [hd.1])))).seated h
  | endSeekWindow m _ hd =>
    simp only [Device.seekDue, Bool.and_eq_true, decide_eq_true_eq] at hd
    exact Device.endSeekWindow_seated h hd.1
  | frameStart m header => exact Device.takeFrameStart_seated h m header
  | badLine m _ _ _ _ f r => exact Device.faultFill_seated h m f r
  | goodLine m => exact (Device.onPort_seatsHold d m _).seated h
  | frameEnd m => exact Device.takeFrameEnd_seated h m
  | fillTimeout m f => exact Device.faultFill_seated h m f _
  | frameDeadline m x rest => exact Device.passDeadline_seated h m x rest
  | probeComplete c q => exact (Device.completeProbe_seatsHold d c q).seated h
  | captureEdge x =>
    unfold Device.captureEdge
    split
    · exact ((Device.raise_seatsHold d _ _).trans (Device.onPlanner_seatsHold _ _ rfl rfl rfl)).seated h
    · exact h
  | composeDeadline plan rest => exact (Device.takePlan_keeps d plan rest).seatsHold.seated h
  | compositionComplete c => exact Device.drainCheck_seated ((Device.finishComposition_keeps d c).seatsHold.seated h)
  | emissionStart r => exact (Device.emit_keeps d r).seatsHold.seated h
  | txDone r => exact Device.drainCheck_seated ((Device.endEmission_keeps d r).seatsHold.seated h)

/-- Settles O59: each outcome of a step keeps the roles coherent, with the context present in the states that have one. -/
theorem stepKeepsRolesCoherent : Obligations.StepKeepsRolesCoherent := by
  intro s t session roles h
  obtain ⟨-, -, -, handoff⟩ := session
  have seated : s.dev.AllSeated := s.dev.allSeated_iff.mpr ⟨roles, handoff⟩
  have kept : t.dev.AllSeated := by
    obtain rfl | ⟨i, hm⟩ := step_move h
    · obtain he | ⟨-, he⟩ := s.tick_dev
      · rw [he]; exact seated
      · rw [he]; exact seated.of_planner rfl rfl rfl
    · exact hm.seated seated
  exact (t.dev.allSeated_iff.mp kept).1

end Sys2Proof.Machine
end
